-- ==== Sys2Proof/Word.lean ====
section
/-! DEFINITION. The word types of the machine and their plainest arithmetic. -/

namespace Sys2Proof

/-- A byte of memory. -/
abbrev Byte := BitVec 8

/-- A 32-bit register word (16_registers: every register is 32 bits wide). -/
abbrev Word := BitVec 32

/-- A line of 128 B; bit 0 is bit 0 of the byte at the lowest address (R8). -/
abbrev Line := BitVec 1024

/-- A sequence number compared modulo 2^32 (LSEQ, RSEQ; R81, R252). -/
abbrev Seq := BitVec 32

/-- `a` is later than `b`: it lies less than 2^31 ahead (R81). -/
def Seq.later (a b : Seq) : Bool := decide (a ≠ b) && decide ((a - b).toNat < 2 ^ 31)

/-- A table: a list of key and value pairs, read with a default. -/
abbrev Tbl (κ α : Type) := List (κ × α)

/-- The value at a key, or the default. -/
def Tbl.get {κ α : Type} [DecidableEq κ] (d : α) : Tbl κ α → κ → α
  | [], _ => d
  | (k', v) :: t, k => if k' = k then v else Tbl.get d t k

/-- The value at a key, if the table has one. -/
def Tbl.find {κ α : Type} [DecidableEq κ] : Tbl κ α → κ → Option α
  | [], _ => none
  | (k', v) :: t, k => if k' = k then some v else Tbl.find t k

/-- Set the value at a key. -/
def Tbl.set {κ α : Type} [DecidableEq κ] : Tbl κ α → κ → α → Tbl κ α
  | [], k, v => [(k, v)]
  | (k', v') :: t, k, v => if k' = k then (k, v) :: t else (k', v') :: Tbl.set t k v

/-- Remove a key. -/
def Tbl.del {κ α : Type} [DecidableEq κ] (t : Tbl κ α) (k : κ) : Tbl κ α := t.filter (fun e => e.1 ≠ k)

end Sys2Proof
end

