-- ==== Sys2Proof/Syntax.lean ====
section
/-! DEFINITION. The commands of the block: one constructor of `Instr` per row of spec/opcode_table.json, in the
table's order, and the operand types they carry. Operands are plain data; a structure the manual lays out in bits
is carried as its bits (R8), one the manual gives no layout for as a record of the fields it names. -/

namespace Sys2Proof

/-- A manifest entry of 128 B as one little-endian number (R48). -/
abbrev Entry := BitVec 1024

/-- A frame as it arrives on or leaves by the peer port: virtual channel, 16 B Kuchesta header, LEN, and the packet as
one little-endian number (R446, R447). -/
structure Frame where
  vc  : Nat
  hdr : BitVec 128
  len : Nat
  pkt : Nat
  deriving DecidableEq, Repr

/-- A compute-port request: the signals of R438. -/
structure CpReq where
  pos    : Nat
  lane   : Nat
  tag    : Nat
  addr   : Nat
  dev    : Nat
  win    : Nat
  mask   : BitVec 128
  data   : Line
  crcv   : Bool
  crc    : Nat
  poison : Bool
  fmt    : Nat
  attr   : Nat
  flag   : Bool
  aop    : Nat
  atype  : Nat
  noret  : Bool
  priv   : Bool
  master : Nat
  deriving DecidableEq, Repr

/-- Who makes a register access: rg_priv and rg_master (R456). -/
structure Acc where
  priv   : Bool
  master : Nat
  deriving DecidableEq, Repr

/-- What every structured peer message carries: sender, job tag, epoch, convoy, logical quay (R92, R144). The manual gives
these messages no bit layout (log 9). -/
structure Hd where
  src    : Nat
  job    : Nat
  epoch  : Nat
  convoy : Nat
  quay   : Nat
  deriving DecidableEq, Repr

/-- Anchor request, TYPE 0x9; with `stripe` all ones it is the stream reset of R93, and `restore` lists the steps of a
restore reset (R91, R93, R127), `only` the one stripe it restores. In a request for a stripe `restore` asks the holder for such a restore: no message
of the spec does, DESIGN CHOICE (log 71). -/
structure AnchorReq where
  hd      : Hd
  stripe  : Nat
  j       : Nat
  restore : List Nat
  only    : Option Nat := none
  deriving DecidableEq, Repr

/-- Anchor answer, TYPE 0xA (R92). `piece` is the 4 KiB piece as 32 lines. -/
structure AnchorAns where
  hd     : Hd
  stripe : Nat
  didx   : Nat
  j      : Nat
  mark   : Seq
  ret    : List Seq
  lcrc   : List Nat
  piece  : List Line
  deriving DecidableEq, Repr

/-- Stream-reset answer, TYPE 0xB: MARK and the stripes with unacknowledged copies to this holder (R93). -/
structure ResetAns where
  hd      : Hd
  mark    : Seq
  stripes : List (Nat × Nat)
  deriving DecidableEq, Repr

/-- One hop of a salvage chain: helper device and its coefficient for each lost piece (R157). -/
structure Hop where
  dev    : Nat
  pos    : Nat
  coeffs : List Nat
  deriving DecidableEq, Repr

/-- A salvage message naming a stripe: freeze, FROZEN, pass, chain sum or helper lines (R153 to R157). `no` numbers the pass at the
device that runs it; `lines` are the lines of a demand pass, none for a whole piece; `pos` is the position of the piece it names; `chain` the
order of the chain; `sums` one list of 32 lines per lost piece; `bad` a piece that does not read (R159); `recs` the replicas that the sender
of a FROZEN holds of the position of a standby it answers (R133). -/
structure SalvMsg where
  hd     : Hd
  no     : Nat
  stripe : Nat
  audit  : Bool
  mark   : Seq
  lines  : List Nat
  pos    : Nat
  bad    : Bool
  home   : Nat
  lost   : List Nat
  chain  : List Hop
  sums   : List (List Line)
  recs   : List Line := []
  deriving DecidableEq, Repr

/-- A request for, or a piece of, the job image (R169); `data` is the 64 KiB piece as one little-endian number. -/
structure ImgMsg where
  src   : Nat
  job   : Nat
  epoch : Nat
  piece : Nat
  data  : Nat
  deriving DecidableEq, Repr

/-- What answers on the charter port (R384, R385). -/
inductive ChKind where
  | none | spi | i2c
  deriving DecidableEq, Repr

/-- An SPI NOR device by its SFDP tables (R384): the signature, the density in Mbit, whether the 1-4-4 and 1-1-4 reads are listed, the
quad-enable bit where the table names one, and the 4 KiB erase opcode where it lists one. -/
structure SpiNor where
  sig    : Nat
  mbit   : Nat
  io144  : Bool
  io114  : Bool
  quad   : Option Bool
  erase  : Option Nat
  deriving DecidableEq, Repr

/-- The charter memory as the harbour master finds it: the SPI NOR device that answers, whether an I2C memory does, and the two
copies of the memory used as little-endian numbers from their headers on (R384 to R387). -/
structure CharterPort where
  spi   : Option SpiNor
  i2c   : Bool
  copyA : Nat
  copyB : Nat
  deriving DecidableEq, Repr

/-- How a flash command of a rewrite ended (R431): without error or with a failure, and what a read-back command read. -/
structure FlashEnd where
  ok   : Bool
  data : Nat
  deriving DecidableEq, Repr

/-- How a known-answer run ends (R343): the units (physical quay, unit) whose kernel fails, and those whose next operation after it meets an error
(R329, R337, R345, log 129). -/
structure KatEnd where
  fails : List (Nat × Nat)
  errs  : List (Nat × Nat)
  deriving DecidableEq, Repr

/-- A sideband input (R462). -/
inductive SbPin where
  | presence | sealLoop | pilotGrade | failStop
  deriving DecidableEq, Repr

/-- A datapath fault met while an optimizer bucket runs: on logical quay, tensor line index, element; the shadow lane
differs (R203) or a residue check fails (R345). -/
structure LaneFault where
  quay    : Nat
  line    : Nat
  elem    : Nat
  residue : Bool
  deriving DecidableEq, Repr

/-- The commands (spec/opcode_table.json). -/
inductive Instr where
  /-- QRESET (R437): LAB_STRAP and SEAL_LOOP as they stand at release. -/
  | qreset (strap loop : Bool)
  /-- START_UP (R394): the charter memory, and the quays whose version differs or whose heartbeats miss (R15). -/
  | startUp (ch : CharterPort) (bad : List Nat)
  | tideCount (count : Nat)
  /-- TIDE_STALL (R38): qclk cycles since the last accepted count. -/
  | tideStall (cyc : Nat)
  | tideLost (cyc : Nat)
  | manifestScan
  | heldManifest
  | stepStart (m : Entry)
  | stepClose (m : Entry)
  | stepAbort (m : Entry)
  | verdictFail (m : Entry)
  | verdictPlace (m : Entry)
  | jobStart (m : Entry)
  | jobTeardown (m : Entry)
  | drainEnd
  | tombstoneExpiry (tag : Nat)
  | roleChange (m : Entry)
  | groupDefine (m : Entry)
  | groupDelete (m : Entry)
  | collectiveLaunch (m : Entry)
  | reduceInto (cseq : Nat)
  | multicastStore (cseq : Nat)
  | gatherPut (cseq : Nat)
  | optimizerDescriptor (m : Entry)
  | optimizerDescriptorDelete (m : Entry)
  | optimizerBucket (m : Entry) (faults : List LaneFault)
  | layerSchedule (m : Entry)
  | holdPrefetchOrder (m : Entry)
  | remoteReadCacheInvalidate (m : Entry)
  | coldFlushRequest (m : Entry)
  | flushConfirm (m : Entry)
  | park (m : Entry)
  | resume (m : Entry)
  | cpRead (r : CpReq)
  | cpWrite (r : CpReq)
  | cpRemoteRead (r : CpReq)
  | cpRemoteWrite (r : CpReq)
  | cpRemoteAtomic (r : CpReq)
  | mcReadData (pos tag : Nat) (data : Line) (status : Nat)
  | mcWriteAck (pos tag status : Nat)
  | mcTimeout (pos : Nat)
  | lighterHoldExpiry (pos : Nat)
  | parityDeltaLighter (pos : Nat) (f : Frame)
  | lighterAck (pos : Nat) (f : Frame)
  | anchorDone (pos : Nat) (f : Frame)
  | lighterAckTimeout (pos : Nat)
  | sealLate (pos : Nat)
  | anchorRequest (pos : Nat) (a : AnchorReq)
  | anchorAnswer (pos : Nat) (a : AnchorAns)
  | anchorTimeout (pos : Nat)
  | streamReset (pos : Nat) (a : AnchorReq)
  | streamResetAnswer (pos : Nat) (a : ResetAns)
  | mooringVoteSlot
  | mooringVote (pos : Nat) (f : Frame)
  | voteRelay (pos : Nat) (f : Frame)
  | voteRelayEmpty (pos : Nat) (f : Frame)
  | joinMessage (pos : Nat) (f : Frame)
  | fenceNotice (pos : Nat) (f : Frame)
  | taint (pos : Nat) (f : Frame)
  | collectiveAbort (pos : Nat) (f : Frame)
  | collectiveAbortResend (cseq : Nat)
  | displacementNotice (pos : Nat) (f : Frame)
  | collContribution (pos : Nat) (f : Frame)
  | collEnd (pos : Nat) (f : Frame)
  | collResult (pos : Nat) (f : Frame)
  | collBlock (pos : Nat) (f : Frame)
  | collFinish (pos : Nat) (f : Frame)
  | collStale (pos : Nat) (f : Frame)
  | collIdle (cseq : Nat)
  | collParkLimit (cseq : Nat)
  | unlaunchedCseqTimeout (cseq : Nat)
  | remoteReadRequest (pos : Nat) (f : Frame)
  | remoteWriteRequest (pos : Nat) (f : Frame)
  /-- ATOMIC_ADD (R264): item `n` of an arriving atomic request packet. -/
  | atomicAdd (pos : Nat) (f : Frame) (n : Nat)
  | atomicMin (pos : Nat) (f : Frame) (n : Nat)
  | atomicMax (pos : Nat) (f : Frame) (n : Nat)
  | atomicCas (pos : Nat) (f : Frame) (n : Nat)
  | remoteReadReply (pos : Nat) (f : Frame)
  | remoteWriteAnswer (pos : Nat) (f : Frame)
  | remoteAtomicReply (pos : Nat) (f : Frame)
  | rmtAckTimeout (pos : Nat)
  | rmtLifeExpiry (pos : Nat)
  | streamRecordFree (pos : Nat)
  | combFlush (pos : Nat)
  | combIdle (pos : Nat)
  | salvageStart
  | salvageFreeze (pos : Nat) (m : SalvMsg)
  | frozen (pos : Nat) (m : SalvMsg)
  | salvagePass (pos : Nat) (m : SalvMsg)
  | salvageChainSum (pos : Nat) (m : SalvMsg)
  | helperLines (pos : Nat) (m : SalvMsg)
  | salvFreezeExpiry (pos : Nat)
  | jobImagePieceRequest (m : ImgMsg)
  | jobImagePiece (m : ImgMsg)
  | bcastTimeout (piece : Nat)
  | jobStartFailed
  | jobHoldExpiry
  | heartbeatSend (p : Nat)
  | heartbeatMissed (p : Nat)
  | fatalInternalError (p : Nat)
  | ringLinkFailure (p : Nat)
  | reliefPowerGood (p : Nat)
  | reliefCrossbarSwitched (p : Nat)
  | reliefTablesLoaded (p : Nat)
  | voteReport (pos step : Nat)
  | numericsShare (step : Nat)
  | refreshData (pos : Nat) (f : Frame)
  | refreshEnd (pos : Nat) (f : Frame)
  | refreshResyncRequest (pos : Nat) (f : Frame)
  | refrGapExpiry
  | hBatchOpen (acc : Acc)
  | flipEligible
  | dredgeSlot (pos : Nat)
  | knownAnswerRun (run : KatEnd)
  | marginSettleExpiry (p unit : Nat) (pass : Bool)
  | marginHoldExpiry (p unit : Nat)
  | lockStepWindowClose
  | tileOpenExpiry (pos : Nat)
  | coldFlushWindow
  | lockerWriteAnswer (pos : Nat) (f : Frame)
  | lockerReadReply (pos : Nat) (f : Frame)
  | lockerAckTimeout (pos : Nat)
  | gradeHoldExpiry
  | gradeSettleExpiry
  | pilotGradeChange (grade : Nat)
  | presenceChange (level : Bool)
  | presenceMaxExpiry
  | sealLoopBreak (p : Nat)
  | sealLoopRestore
  | failStopInAssert (p : Nat)
  | failStopInRearm
  | ppLinkDown (pos : Nat)
  | ppLinkUp (pos : Nat)
  | supplyRemoved
  | pwrReqRun (acc : Acc) (key : Nat)
  | pwrReqIdle (acc : Acc) (key : Nat)
  | pwrReqHold (acc : Acc) (key : Nat)
  | pwrState
  | hWarm (acc : Acc) (data : Word)
  | warmRestart (ch : CharterPort) (bad : List Nat)
  | crwGo (acc : Acc) (key : Nat)
  | crwAbort (acc : Acc) (key : Nat)
  | qCtlEnable (p : Nat) (acc : Acc) (key : Nat)
  | qCtlDisable (p : Nat) (acc : Acc) (key : Nat)
  | qErrqPop (p : Nat) (acc : Acc)
  | eccFlipArm (p : Nat) (acc : Acc) (data : Word)
  | counterSnapshotRequest (acc : Acc) (user clear : Bool)
  | counterSnapshot
  | paramValLoWrite (p : Nat) (acc : Acc) (data : Word)
  | paramValHiWrite (p : Nat) (acc : Acc) (data : Word)
  | registerLoRead (addr : Nat) (acc : Acc)
  | registerReadClear (addr : Nat) (acc : Acc)
  | registerWrite (addr : Nat) (acc : Acc) (data : Word)
  | stormWindowEnd (p : Nat)
  | evtIrqExpiry
  | bypass (p : Nat)
  | idcode (p : Nat)
  | samplePreload (p : Nat) (pins preload : BitVec 32)
  | extest (p : Nat) (pins drive : BitVec 32)
  | clamp (p : Nat)
  | highz (p : Nat)
  | dbgReg (p : Nat) (dr : BitVec 64)
  | dbgMemAddr (p : Nat) (dr : BitVec 48)
  | dbgMemData (p : Nat)
  | tapReset (p : Nat)
  | flashCommandDone (r : FlashEnd)
  | ppFlitCredit (pos vc : Nat)
  /-- HR_FLIT_CREDIT (R453): link end (true for hr_e) of quay `p`, class. -/
  | hrFlitCredit (p : Nat) (east : Bool) (cls : Nat)
  | sidebandGlitch (pin : SbPin)
  deriving DecidableEq, Repr

end Sys2Proof
end

