-- ==== Sys2Proof/Machine/Bits.lean ====
section
/-! DEFINITION. Bit and byte fields, field packing, CRC-32C (R327) and the field GF(2^8) (03). -/

namespace Sys2Proof.Machine

/-- Bits [hi:lo] of a number, as the manual's field tables write them. -/
def fld (v hi lo : Nat) : Nat := (v >>> lo) % 2 ^ (hi + 1 - lo)

/-- Bytes [hi:lo] of a structure held as a little-endian number (R8). -/
def byt (v hi lo : Nat) : Nat := fld v (8 * hi + 7) (8 * lo)

/-- Bit `i` of a number. -/
def bitOf (v i : Nat) : Bool := v.testBit i

/-- A Boolean as a bit. -/
def b2n (b : Bool) : Nat := if b then 1 else 0

/-- Fields laid end to end from bit 0: (width, value) each, every value cut to its width. -/
def pack : List (Nat × Nat) → Nat
  | [] => 0
  | (w, v) :: t => v % 2 ^ w + pack t <<< w

/-- The fields of `v` of the widths given, from bit 0. -/
def unpack : List Nat → Nat → List Nat
  | [], _ => []
  | w :: t, v => v % 2 ^ w :: unpack t (v >>> w)

/-- A field of `w` bits in two's complement. -/
def signed (w v : Nat) : Int := if v % 2 ^ w < 2 ^ (w - 1) then (v % 2 ^ w : Nat) else ((v % 2 ^ w : Nat) : Int) - 2 ^ w

/-- Two's complement of width `w`. -/
def unsigned (w : Nat) (x : Int) : Nat := (x % (2 ^ w : Int)).toNat

/-- Number of ones. -/
def popCount (w v : Nat) : Nat := (List.range w).foldl (fun a i => a + b2n (v.testBit i)) 0

/-- Replace bits [hi:lo]. -/
def setFld (v hi lo x : Nat) : Nat :=
  v % 2 ^ lo + (x % 2 ^ (hi + 1 - lo)) <<< lo + (v >>> (hi + 1)) <<< (hi + 1)

/-- The bytes of the first `n` bytes of a little-endian number, byte 0 first. -/
def bytesOf (n v : Nat) : List Nat := (List.range n).map (fun i => (v >>> (8 * i)) % 256)

/-- The little-endian number of a list of bytes. -/
def ofBytes : List Nat → Nat
  | [] => 0
  | b :: t => b % 256 + 256 * ofBytes t

/-- One bit of the reflected CRC-32C register (R327). -/
def crcBit (c : Nat) : Nat := if c % 2 = 1 then (c >>> 1) ^^^ 0x82F63B78 else c >>> 1

/-- One byte into the CRC register. -/
def crcByte (c b : Nat) : Nat :=
  crcBit (crcBit (crcBit (crcBit (crcBit (crcBit (crcBit (crcBit (c ^^^ (b % 256)))))))))

/-- CRC-32C of a list of bytes (R327). -/
def crc32c (bs : List Nat) : Nat := (bs.foldl crcByte 0xFFFFFFFF) ^^^ 0xFFFFFFFF

/-- CRC-32C over bytes [n-1:0] of a structure. -/
def crcOf (n v : Nat) : Nat := crc32c (bytesOf n v)

/-- The check value of a line (R327). -/
def lineCrc (l : Line) : Nat := crcOf 128 l.toNat

/-- A structure of `n` bytes with its CRC-32C in the last 4. -/
def withCrc (n v : Nat) : Nat := v % 2 ^ (8 * (n - 4)) + (crcOf (n - 4) v) <<< (8 * (n - 4))

/-- Whether the last 4 of `n` bytes hold the CRC-32C of those before. -/
def crcOk (n v : Nat) : Bool := byt v (n - 1) (n - 4) == crcOf (n - 4) v

/-- The KEY of a name: CRC-32C of its ASCII bytes (R389). -/
def keyOf (name : String) : Nat := crc32c (name.toList.map (fun c => c.toNat))

/-! ## GF(2^8) with x^8 + x^4 + x^3 + x^2 + 1 (R71) -/

/-- Multiply by x. -/
def gfX (a : Nat) : Nat := if a < 128 then 2 * a else (2 * a) ^^^ 0x11D

/-- Product in GF(2^8): `n` bits of `b` left. -/
def gfMulAux : Nat → Nat → Nat → Nat
  | 0, _, _ => 0
  | n + 1, a, b => (if b % 2 = 1 then a else 0) ^^^ gfMulAux n (gfX a) (b / 2)

/-- Product in GF(2^8). -/
def gfMul (a b : Nat) : Nat := gfMulAux 8 (a % 256) (b % 256)

/-- `a` to the power `n`. -/
def gfPow (a : Nat) : Nat → Nat
  | 0 => 1
  | n + 1 => gfMul a (gfPow a n)

/-- Inverse in GF(2^8): a^254; the inverse of 0 is never taken. -/
def gfInv (a : Nat) : Nat :=
  let a2 := gfMul a a
  let a4 := gfMul a2 a2
  let a8 := gfMul a4 a4
  let a16 := gfMul a8 a8
  let a32 := gfMul a16 a16
  let a64 := gfMul a32 a32
  let a128 := gfMul a64 a64
  gfMul a128 (gfMul a64 (gfMul a32 (gfMul a16 (gfMul a8 (gfMul a4 a2)))))

/-- A constant times every byte of a line: the line scaled (R71). Bit-sliced: bit `k` of each byte contributes
`c * x^k`. -/
def gfScale (c : Nat) (l : Line) : Line :=
  BitVec.ofNat 1024 (ofBytes ((bytesOf 128 l.toNat).map (gfMul c)))

/-- Ceiling division. -/
def cdiv (a b : Nat) : Nat := (a + b - 1) / b

/-- Remove the first element that satisfies `p`. -/
def removeFirst {α : Type} (p : α → Bool) : List α → List α
  | [] => []
  | a :: t => if p a then t else a :: removeFirst p t

/-- Map the elements that satisfy `p`. -/
def mapIf {α : Type} (p : α → Bool) (f : α → α) (l : List α) : List α := l.map (fun a => if p a then f a else a)

/-- Insert into a list sorted by `le`, after its equals. -/
def insertBy {α : Type} (le : α → α → Bool) (a : α) : List α → List α
  | [] => [a]
  | b :: t => if le b a then b :: insertBy le a t else a :: b :: t

/-- A stable sort by `le`. -/
def sortBy {α : Type} (le : α → α → Bool) : List α → List α
  | [] => []
  | a :: t => insertBy (fun x y => le x y && !le y x) a (sortBy le t)

/-- Run `f` over a list, from the left. -/
def foldS {α σ : Type} (l : List α) (f : α → σ → σ) (s : σ) : σ := l.foldl (fun s a => f a s) s

/-- Run `f` where there is a value. -/
def whenSome {α σ : Type} (o : Option α) (f : α → σ → σ) (s : σ) : σ :=
  match o with
  | none => s
  | some a => f a s

/-- Run `f` under a condition. -/
def whenB {σ : Type} (b : Bool) (f : σ → σ) (s : σ) : σ := if b then f s else s

end Sys2Proof.Machine
end

