-- ==== Sys2Proof/Machine/Hash.lean ====
section
/-! DEFINITION. SHA-256 (FIPS 180-4; R132) and AES-128 encryption (FIPS 197; R136). -/

namespace Sys2Proof.Machine

/-! ## SHA-256

The constants are computed from what FIPS 180-4 says they are, the fractional parts of roots of the first primes, and the
working variables are followed as two sequences: what the standard calls a to d are the last four terms of the first, e to h of the
second. -/

/-- Add to `x` the bits 2^(n-1) to 2^0 that keep its power `e` at or below `v`. -/
def rootFloor (e v : Nat) : Nat → Nat → Nat
  | 0, x => x
  | n + 1, x => rootFloor e v n (if (x + 2 ^ n) ^ e ≤ v then x + 2 ^ n else x)

/-- The primes below `n`, ascending. -/
def primesBelow (n : Nat) : List Nat :=
  (List.range n).filter (fun p => decide (2 ≤ p) && (List.range p).all (fun d => decide (d < 2) || p % d != 0))

/-- The first 32 bits of the fractional part of the e-th root of a prime. -/
def rootBits (e p : Nat) : Nat := rootFloor e (p * 2 ^ (32 * e)) 40 0 % 2 ^ 32

/-- The 64 round constants: cube roots of the first 64 primes. -/
def shaRoundConsts : List Nat := (primesBelow 312).map (rootBits 3)

/-- The hash value before the first block: square roots of the first eight primes, as the two sequences. -/
def shaStart : List Nat × List Nat := ((primesBelow 8).map (rootBits 2), ((primesBelow 20).drop 4).map (rootBits 2))

/-- A 32-bit word turned right by each amount, the results summed modulo 2. -/
def turns (x : Nat) (by_ : List Nat) : Nat := by_.foldl (fun acc r => acc ^^^ (x * (2 ^ 32 + 1) / 2 ^ r % 2 ^ 32)) 0

/-- Extend a message schedule, newest word first, by the words a count asks for. -/
def shaExtend (count : Nat) (w : List Nat) : List Nat :=
  count.repeat (fun w =>
    let far := w.getD 14 0
    let near := w.getD 1 0
    ((turns far [7, 18] ^^^ far / 2 ^ 3) + (turns near [17, 19] ^^^ near / 2 ^ 10) + w.getD 6 0 + w.getD 15 0) % 2 ^ 32 :: w) w

/-- The next term of each of the two sequences, newest first, from a schedule word with its constant added. -/
def shaTerm (v : List Nat × List Nat) (kw : Nat) : List Nat × List Nat :=
  let x := fun i => v.1.getD i 0
  let y := fun i => v.2.getD i 0
  let pick := y 2 ^^^ (y 0 &&& (y 1 ^^^ y 2))
  let most := (x 0 &&& (x 1 ||| x 2)) ||| (x 1 &&& x 2)
  let mix := y 3 + turns (y 0) [6, 11, 25] + pick + kw
  ((mix + most + turns (x 0) [2, 13, 22]) % 2 ^ 32 :: v.1, (x 3 + mix) % 2 ^ 32 :: v.2)

/-- Big-endian words of a block, newest first. -/
def shaWords (bs : List Nat) : List Nat :=
  (List.range 16).map (fun i => ((bs.drop (60 - 4 * i)).take 4).foldl (fun a b => 256 * a + b) 0)

/-- Take a block of 64 bytes into the hash value. -/
def shaBlock (h : List Nat × List Nat) (bs : List Nat) : List Nat × List Nat :=
  let kws := (shaRoundConsts.zip (shaExtend 48 (shaWords bs)).reverse).map (fun e => e.1 + e.2)
  let v := kws.foldl shaTerm h
  let sum := fun (a b : List Nat) => (a.zip b).map (fun e => (e.1 + e.2) % 2 ^ 32)
  (sum h.1 (v.1.take 4), sum h.2 (v.2.take 4))

/-- SHA-256 of 96 bytes: two blocks after padding; 32 bytes, byte 0 first. -/
def sha256x96 (bs : List Nat) : List Nat :=
  let b2 := bs.drop 64 ++ [0x80] ++ List.replicate 29 0 ++ [0x03, 0x00]
  let h := shaBlock (shaBlock shaStart (bs.take 64)) b2
  (h.1 ++ h.2).flatMap (fun w => (bytesOf 4 w).reverse)

/-! ## AES-128 -/

/-- Multiply by x in the AES field. -/
def aesX (a : Nat) : Nat := if a < 128 then 2 * a else (2 * a % 256) ^^^ 0x1B

/-- Product in the AES field. -/
def aesMulAux : Nat → Nat → Nat → Nat
  | 0, _, _ => 0
  | n + 1, a, b => (if b % 2 = 1 then a else 0) ^^^ aesMulAux n (aesX a) (b / 2)
def aesMul (a b : Nat) : Nat := aesMulAux 8 a b

/-- Power in the AES field. -/
def aesPow (a : Nat) : Nat → Nat
  | 0 => 1
  | n + 1 => aesMul a (aesPow a n)

/-- The inverse, a^254. -/
def aesInv (a : Nat) : Nat :=
  let a2 := aesMul a a
  let a4 := aesMul a2 a2
  let a8 := aesMul a4 a4
  let a16 := aesMul a8 a8
  let a32 := aesMul a16 a16
  let a64 := aesMul a32 a32
  let a128 := aesMul a64 a64
  aesMul a128 (aesMul a64 (aesMul a32 (aesMul a16 (aesMul a8 (aesMul a4 a2)))))

/-- The S-box. -/
def aesSub (a : Nat) : Nat :=
  let b := aesInv a
  let r := fun n => ((b <<< n) ||| (b >>> (8 - n))) % 256
  b ^^^ r 1 ^^^ r 2 ^^^ r 3 ^^^ r 4 ^^^ 0x63

/-- The key schedule: 11 round keys of 16 bytes from the words so far, newest first. -/
def aesKeys : Nat → Nat → List (List Nat) → List (List Nat)
  | 0, _, w => w
  | n + 1, rc, w =>
    let i := w.length
    let prev := w.headD []
    let t := if i % 4 == 0 then
        match (prev.drop 1 ++ prev.take 1).map aesSub with
        | a :: rest => (a ^^^ rc) :: rest
        | [] => []
      else prev
    aesKeys n (if i % 4 == 0 then aesX rc else rc) (List.zipWith (fun a b => a ^^^ b) (w.getD 3 []) t :: w)

/-- Round key `r`. -/
def aesRoundKey (ws : List (List Nat)) (r : Nat) : List Nat := (ws.drop (4 * r)).take 4 |>.flatMap id

/-- Shift the rows of a state in column order. -/
def aesShift (s : List Nat) : List Nat := (List.range 16).map (fun i => s.getD ((i + 4 * (i % 4)) % 16) 0)

/-- Mix one column. -/
def aesMixCol (c : List Nat) : List Nat :=
  (List.range 4).map (fun i =>
    aesX (c.getD i 0) ^^^ (aesX (c.getD ((i + 1) % 4) 0) ^^^ c.getD ((i + 1) % 4) 0) ^^^ c.getD ((i + 2) % 4) 0 ^^^ c.getD ((i + 3) % 4) 0)

/-- Mix the columns. -/
def aesMix (s : List Nat) : List Nat := (List.range 4).flatMap (fun c => aesMixCol ((s.drop (4 * c)).take 4))

/-- Encrypt a block of 16 bytes under a key of 16 bytes. -/
def aes128 (key block : List Nat) : List Nat :=
  let w0 := (List.range 4).map (fun i => (key.drop (4 * i)).take 4)
  let ws := (aesKeys 40 1 w0.reverse).reverse
  let add := fun (s : List Nat) r => List.zipWith (fun a b => a ^^^ b) s (aesRoundKey ws r)
  let s9 := (List.range 9).foldl (fun s r => add (aesMix (aesShift (s.map aesSub))) (r + 1)) (add block 0)
  add (aesShift (s9.map aesSub)) 10

/-- The wake (R136): 128 bits for a seed, a step, a stream and a counter. -/
def wake (seed step stream ctr : Nat) : Nat :=
  ofBytes (aes128 (bytesOf 8 seed ++ bytesOf 6 step ++ [0, 0]) (bytesOf 8 stream ++ bytesOf 8 ctr))

/-- STREAM of stochastic rounding for a line (R137). -/
def srStream (pos q convoy u l : Nat) : Nat := pack [(5, l), (28, u), (13, 0), (4, convoy), (4, q), (6, pos), (4, 1)]

end Sys2Proof.Machine
end

