-- ==== Sys2Proof/Config.lean ====
section
/-! DEFINITION. What one integration or one manual-open value fixes: the charter parameters by name (R389), and the
free values, which are constants without a body. -/

namespace Sys2Proof

/-- The charter parameters of release 3.1 (R389, R390): one name per parameter of the manual, indexed fields with their
index. -/
inductive Param where
  | tideStallCyc | tideFwdLimit | tideLoss
  | scanP | scanPhase | voteP | votePhase | dredgeP | dredgePhase | lockP | lockPhase
  | katP | katPhase | flushP | flushPhase
  | scanBudget
  | hostRingQuay | hostRingBase | hostRingLog2 | verdictRingQuay | verdictRingBase | verdictRingLog2
  | collParkLimit
  | lighterHoldT | lighterAckT | sealWindowT | sealWindowSteps
  | logBase | logSize | logOvfSize | logSpecLimit | snapParity | recBase
  | salvFreezeT | salvRate | salvMapBase | bcastT | tombT | jobHoldT | gradeHold
  | optStateBase | nwBase | nwDelay
  | grpBase | grpPoolBase | grpPoolSize | collIdleT
  | rmtAckT | rmtLifeT | rmtTabBase | rmtStreams | hotThresh | hotCredits | combFlushT | combIdleT
  | refrMirrorBase | refrDirtyBase | refrRate | refrStageBase | refrStageSize | refrGapT | flipGrace | scaleMapBase
  | berthSram (p : Nat) | berthMem (p : Nat) | berthMemBase
  | berthT1 (p : Nat) | berthT2 (p : Nat) | berthT3 (p : Nat)
  | holdBase | holdSlots | holdFrameBase | holdFrames | holdMapBase | holdRdRate | holdWrRate | holdPromote | holdAhead
  | tileOpenT | marginSettle | marginHold | suspectLimit | sramPatrol | scrubLines | dredgeStripes
  | fsigBase | lockPeer | lockWin | lockOff
  | evtBase | evtLog2 | evtStormP | evtBurst | evtSample | evtIrqCnt | evtIrqT | recoveryLimit | cntBase
  | lockerDev | lockerBase | lockerSlot | lockerRate | lockerAckT | lockerTries | flushCplBase
  | presenceMax | gradeSettleT | mcTimeoutT | ppW (v : Nat)
  deriving DecidableEq, Repr

/-- The hash that places a stream record in a bucket (R255 names none): a free value of (JOB, SRC_DEV, SRC_QUAY), taken
modulo the bucket count where it is used. -/
opaque Config.streamHash : Nat → Nat → Nat → Nat

/-- The units of ballast a quay has for stand-ins and extra parity (R166, R179 give no size; log 81). -/
opaque Config.ballastUnits : Nat → Nat

/-- The value in ROM that the output of a unit's kernel is compared with, and what a failing kernel shows instead, by unit and by the number of the
fault signature (R343, R354: the spec gives neither). -/
opaque Config.katRom : Nat → Nat
opaque Config.katSeen : Nat → Nat → Nat

/-- A free value for a result the manual leaves open; applied to the State's counter of free values. -/
opaque Config.freeNat : Nat → Nat

end Sys2Proof
end

