-- ==== Sys2Proof/Machine/Params.lean ====
section
/-! DEFINITION. The charter parameters (R389, R390): their names and keys, defaults, ranges and profile values. Where a
parameter's range is not stated, it is the width of what it names (log 14). -/

namespace Sys2Proof.Machine

/-- Parameters without an index, with their names, in the order of the chapters (1 of 5). -/
def plainParams0 : List (Param × String) :=
  [(.tideStallCyc, "TIDE_STALL_CYC"), (.tideFwdLimit, "TIDE_FWD_LIMIT"), (.tideLoss, "TIDE_LOSS"), (.scanP, "SCAN_P"),
   (.scanPhase, "SCAN_PHASE"), (.voteP, "VOTE_P"), (.votePhase, "VOTE_PHASE"), (.dredgeP, "DREDGE_P"),
   (.dredgePhase, "DREDGE_PHASE"), (.lockP, "LOCK_P"), (.lockPhase, "LOCK_PHASE"), (.katP, "KAT_P"),
   (.katPhase, "KAT_PHASE"), (.flushP, "FLUSH_P"), (.flushPhase, "FLUSH_PHASE"), (.scanBudget, "SCAN_BUDGET"),
   (.hostRingQuay, "HOST_RING_QUAY"), (.hostRingBase, "HOST_RING_BASE"), (.hostRingLog2, "HOST_RING_LOG2"), (.verdictRingQuay, "VERDICT_RING_QUAY"),
   (.verdictRingBase, "VERDICT_RING_BASE"), (.verdictRingLog2, "VERDICT_RING_LOG2"), (.collParkLimit, "COLL_PARK_LIMIT"), (.lighterHoldT, "LIGHTER_HOLD_T"),
   (.lighterAckT, "LIGHTER_ACK_T")]

/-- Parameters without an index, with their names, in the order of the chapters (2 of 5). -/
def plainParams1 : List (Param × String) :=
  [(.sealWindowT, "SEAL_WINDOW_T"), (.sealWindowSteps, "SEAL_WINDOW_STEPS"), (.logBase, "LOG_BASE"), (.logSize, "LOG_SIZE"),
   (.logOvfSize, "LOG_OVF_SIZE"), (.logSpecLimit, "LOG_SPEC_LIMIT"), (.snapParity, "SNAP_PARITY"), (.recBase, "REC_BASE"),
   (.salvFreezeT, "SALV_FREEZE_T"), (.salvRate, "SALV_RATE"), (.salvMapBase, "SALV_MAP_BASE"), (.bcastT, "BCAST_T"),
   (.tombT, "TOMB_T"), (.jobHoldT, "JOB_HOLD_T"), (.gradeHold, "GRADE_HOLD"), (.optStateBase, "OPT_STATE_BASE"),
   (.nwBase, "NW_BASE"), (.nwDelay, "NW_DELAY"), (.grpBase, "GRP_BASE"), (.grpPoolBase, "GRP_POOL_BASE"),
   (.grpPoolSize, "GRP_POOL_SIZE"), (.collIdleT, "COLL_IDLE_T"), (.rmtAckT, "RMT_ACK_T"), (.rmtLifeT, "RMT_LIFE_T"),
   (.rmtTabBase, "RMT_TAB_BASE")]

/-- Parameters without an index, with their names, in the order of the chapters (3 of 5). -/
def plainParams2 : List (Param × String) :=
  [(.rmtStreams, "RMT_STREAMS"), (.hotThresh, "HOT_THRESH"), (.hotCredits, "HOT_CREDITS"), (.combFlushT, "COMB_FLUSH_T"),
   (.combIdleT, "COMB_IDLE_T"), (.refrMirrorBase, "REFR_MIRROR_BASE"), (.refrDirtyBase, "REFR_DIRTY_BASE"), (.refrRate, "REFR_RATE"),
   (.refrStageBase, "REFR_STAGE_BASE"), (.refrStageSize, "REFR_STAGE_SIZE"), (.refrGapT, "REFR_GAP_T"), (.flipGrace, "FLIP_GRACE"),
   (.scaleMapBase, "SCALE_MAP_BASE"), (.berthMemBase, "BERTH_MEM_BASE"), (.holdBase, "HOLD_BASE"), (.holdSlots, "HOLD_SLOTS"),
   (.holdFrameBase, "HOLD_FRAME_BASE"), (.holdFrames, "HOLD_FRAMES"), (.holdMapBase, "HOLD_MAP_BASE"), (.holdRdRate, "HOLD_RD_RATE"),
   (.holdWrRate, "HOLD_WR_RATE"), (.holdPromote, "HOLD_PROMOTE"), (.holdAhead, "HOLD_AHEAD"), (.tileOpenT, "TILE_OPEN_T"),
   (.marginSettle, "MARGIN_SETTLE")]

/-- Parameters without an index, with their names, in the order of the chapters (4 of 5). -/
def plainParams3 : List (Param × String) :=
  [(.marginHold, "MARGIN_HOLD"), (.suspectLimit, "SUSPECT_LIMIT"), (.sramPatrol, "SRAM_PATROL"), (.scrubLines, "SCRUB_LINES"),
   (.dredgeStripes, "DREDGE_STRIPES"), (.fsigBase, "FSIG_BASE"), (.lockPeer, "LOCK_PEER"), (.lockWin, "LOCK_WIN"),
   (.lockOff, "LOCK_OFF"), (.evtBase, "EVT_BASE"), (.evtLog2, "EVT_LOG2"), (.evtStormP, "EVT_STORM_P"),
   (.evtBurst, "EVT_BURST"), (.evtSample, "EVT_SAMPLE"), (.evtIrqCnt, "EVT_IRQ_CNT"), (.evtIrqT, "EVT_IRQ_T"),
   (.recoveryLimit, "RECOVERY_LIMIT"), (.cntBase, "CNT_BASE"), (.lockerDev, "LOCKER_DEV"), (.lockerBase, "LOCKER_BASE"),
   (.lockerSlot, "LOCKER_SLOT"), (.lockerRate, "LOCKER_RATE"), (.lockerAckT, "LOCKER_ACK_T"), (.lockerTries, "LOCKER_TRIES"),
   (.flushCplBase, "FLUSH_CPL_BASE")]

/-- Parameters without an index, with their names, in the order of the chapters (5 of 5). -/
def plainParams4 : List (Param × String) :=
  [(.presenceMax, "PRESENCE_MAX"), (.gradeSettleT, "GRADE_SETTLE_T"), (.mcTimeoutT, "MC_TIMEOUT_T")]

/-- The parameters without an index. -/
def plainParams : List (Param × String) :=
  plainParams0 ++ plainParams1 ++ plainParams2 ++ plainParams3 ++ plainParams4

/-- The indexed parameters (R389). -/
def indexedParams : List (Param × String) :=
  [(.berthSram 0, "BERTH_SRAM_0"), (.berthSram 1, "BERTH_SRAM_1"), (.berthSram 2, "BERTH_SRAM_2"), (.berthSram 3, "BERTH_SRAM_3"), (.berthSram 4, "BERTH_SRAM_4"), (.berthSram 5, "BERTH_SRAM_5"),
   (.berthMem 0, "BERTH_MEM_0"), (.berthMem 1, "BERTH_MEM_1"), (.berthMem 2, "BERTH_MEM_2"), (.berthMem 3, "BERTH_MEM_3"), (.berthMem 4, "BERTH_MEM_4"), (.berthMem 5, "BERTH_MEM_5"),
   (.berthT1 0, "BERTH_T1_0"), (.berthT1 1, "BERTH_T1_1"), (.berthT1 2, "BERTH_T1_2"), (.berthT1 3, "BERTH_T1_3"), (.berthT1 4, "BERTH_T1_4"), (.berthT1 5, "BERTH_T1_5"),
   (.berthT2 0, "BERTH_T2_0"), (.berthT2 1, "BERTH_T2_1"), (.berthT2 2, "BERTH_T2_2"), (.berthT2 3, "BERTH_T2_3"), (.berthT2 4, "BERTH_T2_4"), (.berthT2 5, "BERTH_T2_5"),
   (.berthT3 0, "BERTH_T3_0"), (.berthT3 1, "BERTH_T3_1"), (.berthT3 2, "BERTH_T3_2"), (.berthT3 3, "BERTH_T3_3"), (.berthT3 4, "BERTH_T3_4"), (.berthT3 5, "BERTH_T3_5"),
   (.ppW 1, "PP_W_1"), (.ppW 2, "PP_W_2"), (.ppW 3, "PP_W_3"), (.ppW 4, "PP_W_4"), (.ppW 5, "PP_W_5"), (.ppW 6, "PP_W_6"), (.ppW 7, "PP_W_7")]

/-- Every parameter of release 3.1 with its name. -/
def allParams : List (Param × String) := plainParams ++ indexedParams

/-- The parameter a KEY names (R389). -/
def paramOfKey (key : Nat) : Option Param := (allParams.find? (fun e => keyOf e.2 == key)).map (·.1)

/-- The KEY of a parameter. -/
def keyOfParam (x : Param) : Nat := ((allParams.find? (fun e => e.1 == x)).map (fun e => keyOf e.2)).getD 0

/-- Default berth counts of the SRAM and memory tiers (R305), and default port weights (R450). -/
def defBerthSram : List Nat := [512, 256, 160, 32, 8, 6]
def defBerthMem : List Nat := [65536, 16384, 16384, 4096, 1024, 256]
def defPpW : List Nat := [0, 8, 4, 8, 2, 4, 4, 2]

/-- The default of a parameter on logical quay `lq`; `g` reads the value in force of another one, `ringMiB` is the log
ring's size (R102). None where the manual states none. -/
def paramDefault (lq ringMiB : Nat) (g : Param → Nat) : Param → Option Nat
  | .tideStallCyc => some (256)
  | .tideFwdLimit => some (1024)
  | .tideLoss => some (2000000)
  | .scanP => some (12)
  | .scanPhase => some (0)
  | .voteP => some (16)
  | .votePhase => some (0)
  | .dredgeP => some (20)
  | .dredgePhase => some (lq * 2 ^ (g .dredgeP - 4))
  | .lockP => some (20)
  | .lockPhase => some (0)
  | .katP => some (30)
  | .katPhase => some (2 ^ 29 % 2 ^ g .katP)
  | .flushP => some (38)
  | .flushPhase => some (0)
  | .scanBudget => some (256)
  | .hostRingQuay => none
  | .hostRingBase => none
  | .hostRingLog2 => none
  | .verdictRingQuay => none
  | .verdictRingBase => none
  | .verdictRingLog2 => none
  | .collParkLimit => some (1000000)
  | .lighterHoldT => some (2048)
  | .lighterAckT => some (500000)
  | .sealWindowT => some (200000000)
  | .sealWindowSteps => some (1)
  | .logBase => none
  | .logSize => none
  | .logOvfSize => some (0)
  | .logSpecLimit => some (ringMiB / 2)
  | .snapParity => some (1)
  | .recBase => none
  | .salvFreezeT => some (100000)
  | .salvRate => some (256)
  | .salvMapBase => none
  | .bcastT => some (100000)
  | .tombT => some (1000000000)
  | .jobHoldT => some (10000000)
  | .gradeHold => some (2 ^ 34)
  | .optStateBase => none
  | .nwBase => none
  | .nwDelay => some (1)
  | .grpBase => none
  | .grpPoolBase => none
  | .grpPoolSize => some (4 * 2 ^ 20)
  | .collIdleT => some (500000)
  | .rmtAckT => some (100000)
  | .rmtLifeT => some (2000000)
  | .rmtTabBase => none
  | .rmtStreams => some (65536)
  | .hotThresh => some (8)
  | .hotCredits => some (2)
  | .combFlushT => some (4096)
  | .combIdleT => some (65536)
  | .refrMirrorBase => none
  | .refrDirtyBase => none
  | .refrRate => some (100000)
  | .refrStageBase => none
  | .refrStageSize => none
  | .refrGapT => some (200000000)
  | .flipGrace => some (4096)
  | .scaleMapBase => none
  | .berthMemBase => none
  | .holdBase => none
  | .holdSlots => some (0)
  | .holdFrameBase => none
  | .holdFrames => some (512)
  | .holdMapBase => none
  | .holdRdRate => some (16000)
  | .holdWrRate => some (8000)
  | .holdPromote => some (4)
  | .holdAhead => some (2)
  | .tileOpenT => some (1000000)
  | .marginSettle => some (1000000)
  | .marginHold => some (2 ^ 34)
  | .suspectLimit => some (3)
  | .sramPatrol => some (16384)
  | .scrubLines => some (2048)
  | .dredgeStripes => some (4)
  | .fsigBase => none
  | .lockPeer => some (0xFFFFF)
  | .lockWin => none
  | .lockOff => none
  | .evtBase => none
  | .evtLog2 => some (12)
  | .evtStormP => some (20)
  | .evtBurst => some (8)
  | .evtSample => some (16)
  | .evtIrqCnt => some (16)
  | .evtIrqT => some (100000)
  | .recoveryLimit => some (4)
  | .cntBase => some (0)
  | .lockerDev => some (0xFFFFF)
  | .lockerBase => none
  | .lockerSlot => none
  | .lockerRate => some (8000)
  | .lockerAckT => some (1000000)
  | .lockerTries => some (8)
  | .flushCplBase => none
  | .presenceMax => some (2 ^ 42)
  | .gradeSettleT => some (2 ^ 30)
  | .mcTimeoutT => some (2000000)
  | .berthSram p => some (defBerthSram.getD p 0)
  | .berthMem p => some (defBerthMem.getD p 0)
  | .berthT1 _ => some 192
  | .berthT2 _ => some 224
  | .berthT3 _ => some 248
  | .ppW v => some (defPpW.getD v 0)

/-- The range of a parameter, both ends in range; `g` reads another parameter's value (R42: a phase lies below its
period). -/
def paramRange (ringMiB : Nat) (g : Param → Nat) : Param → Nat × Nat
  | .tideStallCyc => (64, 4096)
  | .tideFwdLimit => (64, 2 ^ 20)
  | .tideLoss => (100000, 100000000)
  | .scanP => (10, 20)
  | .scanPhase => (0, 2 ^ g .scanP - 1)
  | .voteP => (10, 20)
  | .votePhase => (0, 2 ^ g .voteP - 1)
  | .dredgeP => (12, 40)
  | .dredgePhase => (0, 2 ^ g .dredgeP - 1)
  | .lockP => (12, 40)
  | .lockPhase => (0, 2 ^ g .lockP - 1)
  | .katP => (12, 40)
  | .katPhase => (0, 2 ^ g .katP - 1)
  | .flushP => (12, 40)
  | .flushPhase => (0, 2 ^ g .flushP - 1)
  | .scanBudget => (16, 1024)
  | .hostRingQuay => (0, 15)
  | .hostRingBase => (0, 2 ^ 40 - 1)
  | .hostRingLog2 => (6, 16)
  | .verdictRingQuay => (0, 15)
  | .verdictRingBase => (0, 2 ^ 40 - 1)
  | .verdictRingLog2 => (6, 16)
  | .collParkLimit => (50000, 10000000)
  | .lighterHoldT => (256, 65536)
  | .lighterAckT => (50000, 5000000)
  | .sealWindowT => (1000000, 2000000000)
  | .sealWindowSteps => (0, 1)
  | .logBase => (0, 2 ^ 28 - 1)
  | .logSize => (0, 2 ^ 28 - 1)
  | .logOvfSize => (0, 2 ^ 28 - 1)
  | .logSpecLimit => (0, ringMiB)
  | .snapParity => (0, 1)
  | .recBase => (0, 2 ^ 40 - 1)
  | .salvFreezeT => (10000, 1000000)
  | .salvRate => (64, 4096)
  | .salvMapBase => (0, 2 ^ 40 - 1)
  | .bcastT => (10000, 10000000)
  | .tombT => (10000000, 100000000000)
  | .jobHoldT => (1000000, 1000000000)
  | .gradeHold => (2 ^ 26, 2 ^ 40)
  | .optStateBase => (0, 2 ^ 40 - 1)
  | .nwBase => (0, 2 ^ 40 - 1)
  | .nwDelay => (1, 15)
  | .grpBase => (0, 2 ^ 40 - 1)
  | .grpPoolBase => (0, 2 ^ 40 - 1)
  | .grpPoolSize => (2 ^ 16, 2 ^ 26)
  | .collIdleT => (50000, 10000000)
  | .rmtAckT => (10000, 1000000)
  | .rmtLifeT => (200000, 20000000)
  | .rmtTabBase => (0, 2 ^ 40 - 1)
  | .rmtStreams => (4096, 1048576)
  | .hotThresh => (2, 64)
  | .hotCredits => (1, 16)
  | .combFlushT => (512, 65536)
  | .combIdleT => (4096, 2 ^ 20)
  | .refrMirrorBase => (0, 2 ^ 40 - 1)
  | .refrDirtyBase => (0, 2 ^ 40 - 1)
  | .refrRate => (10000, 400000)
  | .refrStageBase => (0, 2 ^ 40 - 1)
  | .refrStageSize => (0, 2 ^ 40 - 1)
  | .refrGapT => (10000000, 10000000000)
  | .flipGrace => (1024, 65536)
  | .scaleMapBase => (0, 2 ^ 40 - 1)
  | .berthMemBase => (0, 2 ^ 40 - 1)
  | .holdBase => (0, 2 ^ 28 - 1)
  | .holdSlots => (0, 2 ^ 24 - 1)
  | .holdFrameBase => (0, 2 ^ 28 - 1)
  | .holdFrames => (64, 2 ^ 24 - 1)
  | .holdMapBase => (0, 2 ^ 28 - 1)
  | .holdRdRate => (1000, 64000)
  | .holdWrRate => (500, 32000)
  | .holdPromote => (1, 7)
  | .holdAhead => (1, 8)
  | .tileOpenT => (10000, 100000000)
  | .marginSettle => (100000, 100000000)
  | .marginHold => (2 ^ 26, 2 ^ 40)
  | .suspectLimit => (1, 15)
  | .sramPatrol => (0, 1048576)
  | .scrubLines => (0, 65536)
  | .dredgeStripes => (0, 64)
  | .fsigBase => (0, 2 ^ 40 - 1)
  | .lockPeer => (0, 0xFFFFF)
  | .lockWin => (0, 15)
  | .lockOff => (0, 2 ^ 40 - 1)
  | .evtBase => (0, 2 ^ 40 - 1)
  | .evtLog2 => (10, 20)
  | .evtStormP => (16, 28)
  | .evtBurst => (1, 64)
  | .evtSample => (2, 256)
  | .evtIrqCnt => (1, 1024)
  | .evtIrqT => (1000, 10000000)
  | .recoveryLimit => (1, 15)
  | .cntBase => (0, 2 ^ 40 - 1)
  | .lockerDev => (0, 0xFFFFF)
  | .lockerBase => (0, 2 ^ 64 - 1)
  | .lockerSlot => (0, 2 ^ 64 - 1)
  | .lockerRate => (100, 64000)
  | .lockerAckT => (100000, 100000000)
  | .lockerTries => (1, 64)
  | .flushCplBase => (0, 2 ^ 40 - 1)
  | .presenceMax => (2 ^ 36, 2 ^ 46)
  | .gradeSettleT => (2 ^ 24, 2 ^ 34)
  | .mcTimeoutT => (100000, 100000000)
  | .berthSram _ => (0, 1023)
  | .berthMem _ => (0, 1048575)
  | .berthT1 _ => (16, 255)
  | .berthT2 _ => (16, 255)
  | .berthT3 _ => (16, 255)
  | .ppW _ => (1, 64)

/-- The parameters whose value is a multiple of 4 KiB. -/
def alignedParams : List Param :=
  [.hostRingBase, .verdictRingBase, .recBase, .grpBase, .nwBase, .rmtTabBase, .evtBase, .berthMemBase, .lockOff] ++
  [.lockerBase, .lockerSlot]

/-- Alignments and other forms a value must have beside its range: 4 KiB or 32 B alignment, powers of two. -/
def paramForm (x : Param) (v : Nat) : Bool :=
  (!alignedParams.contains x || v % 4096 == 0) && (x != .flushCplBase || v % 32 == 0) &&
  (!(x == .rmtStreams || x == .evtSample) || v == 2 ^ Nat.log2 v)

/-- What the profiles set (R391): function, profile, parameter, value. -/
def profileTable : List (Nat × Nat × Param × Nat) :=
  [(1, 1, .tideLoss, 500000), (1, 2, .scanBudget, 64), (2, 1, .sealWindowT, 50000000), (2, 1, .lighterAckT, 200000)] ++
  [(2, 2, .lighterHoldT, 8192), (3, 1, .scrubLines, 8192), (3, 1, .dredgeStripes, 16), (3, 1, .katP, 28)] ++
  [(3, 2, .scrubLines, 512), (3, 2, .dredgeStripes, 1), (4, 1, .collIdleT, 200000), (5, 1, .rmtAckT, 50000)] ++
  [(5, 2, .rmtStreams, 4096), (7, 1, .evtBurst, 16), (7, 2, .evtLog2, 10), (8, 1, .flushP, 36), (8, 2, .flushP, 40)] ++
  (List.range 6).flatMap (fun p => [(6, 1, .berthT1 p, 160), (6, 1, .berthT2 p, 208), (6, 1, .berthT3 p, 240),
    (6, 2, .berthMem p, defBerthMem.getD p 0 / 4)])

end Sys2Proof.Machine
end

