-- ==== Sys2Proof/Machine/State.lean ====
section
/-! DEFINITION. The state of one harbour as plain data, and its value after reset. Each structure is one chapter's state;
field defaults are the reset values (INVENTORY.md lists them with their rules; where the manual gives none the log
entry is named). -/

namespace Sys2Proof.Machine

/-- Why the machine stops with a fault. -/
inductive Fault where
  /-- A compute- or channel-port command at a port position the integration does not have (R434): raised by the
  compute- and channel-port commands. Safe: no such port exists to carry the command. -/
  | noSuchPort
  deriving DecidableEq, Repr

/-- Why a command is refused. -/
inductive Refusal where
  /-- The command has no meaning in the model yet. Safe: nothing can be proved of it. -/
  | notModelled (mnemonic : String)
  deriving DecidableEq, Repr

/-! ## Integration and configuration -/

/-- What the integrator fixes (R16, R17, R415, R428); no command changes it. Reset: the Tavar reference package, a
production build. DESIGN CHOICE (log 4). -/
structure Fit where
  nActive   : Nat := 12
  nRelief   : Nat := 4
  dieOf     : List Nat := [0, 0, 0, 1, 1, 1, 2, 2, 2, 3, 3, 3]
  reliefDie : List Nat := [0, 1, 2, 3]
  labParts  : Bool := false
  tapMfr    : Nat := 0
  deriving DecidableEq, Repr

/-- Where a parameter's value came from (R390, R489). -/
inductive PSource where
  | default | profile | harbour | quay
  deriving DecidableEq, Repr

/-- A parameter's resolved value (R390). -/
structure PVal where
  val : Nat
  src : PSource
  deriving DecidableEq, Repr

/-! ## Tide and scheduled events (02) -/

/-- An event class that has fired and waits to run, in the order of R43. -/
inductive DueEv where
  | scan | held | launch (cseq : Nat) | vote | lock | kat | dredge (pos : Nat) | flush
  deriving DecidableEq, Repr

/-- The harbour's tide (R33 to R39). `skew` adds up the forward jumps, which the duration clock skips
(R38, log 6); `jumps` lists them with the tide after each. -/
structure Tide where
  now     : Nat := 0
  started : Bool := false
  stalled : Bool := false
  backEp  : Bool := false
  cyc     : Nat := 0
  est     : Nat := 0
  lost    : Bool := false
  skew    : Nat := 0
  jumps   : List (Nat × Nat) := []
  faultWins : List Nat := []
  holdEntry : Option Nat := none
  deriving DecidableEq, Repr

/-- A held manifest (R53): ring (false host, true verdict), index, effective tide, the entry, and whether it has reached
its tide with its condition unmet (`late`) or was passed in a step beyond normal running (`missed`). -/
structure Held where
  ring   : Bool
  idx    : Nat
  effect : Nat
  entry  : Entry
  late   : Bool := false
  missed : Bool := false
  deriving DecidableEq, Repr

/-- One manifest ring as the harbour follows it (R46, R50, R51). `done` lists entries at or above CONS already done, `fail`
the entry that failed MCRC or SEQ at the last scan. -/
structure Ring where
  cons    : Nat := 0
  done    : List Nat := []
  fail    : Option Nat := none
  rej     : Nat := 0
  unavail : Bool := false
  deriving DecidableEq, Repr

/-- The manifest machinery (R45 to R54). `asked`: manifests given by commands whose condition is not met yet, which stay at their place in
their ring (R53, log 41). -/
structure Man where
  host    : Ring := {}
  verdict : Ring := {}
  held    : List Held := []
  asked   : List Entry := []
  due     : List DueEv := []
  areaLogged : List (Nat × Nat) := []
  scaleLogged : List (Nat × Nat) := []
  deriving DecidableEq, Repr

/-! ## Start-up, identity, security, power, sideband, test access (13, 14, 15) -/

/-- H_BOOT_STAT, the whole GEN of the copy in use, a pending warm restart (R386, R395, R397), and how SPI NOR is read (R384): 1 1-1-1, 2 1-1-4,
3 1-4-4, 0 before any is. -/
structure Boot where
  readMode : Nat := 0
  phase   : Nat := 0
  source  : Nat := 0
  copy    : Nat := 0
  otherOk : Bool := false
  error   : Nat := 0
  gen     : Nat := 0
  genFull : Nat := 0
  warmReq : Bool := false
  deriving DecidableEq, Repr

/-- Identity and role (R393, R5, R6). Role: false learner, true generator. -/
structure Ident where
  device : Nat := 0xFFFFF
  uid    : Nat := 0
  gen    : Bool := false
  deriving DecidableEq, Repr

inductive SecState where
  | sealed | maintenance | opened
  deriving DecidableEq, Repr

/-- Security state and its inputs (R414 to R419). `broken`: a break has been seen since the loop last read intact. `presLate`: PRESENCE
was asserted in Hold, and the first scan after it has still to see it (R425). -/
structure Sec where
  state    : SecState := .sealed
  strap    : Bool := false
  presence : Bool := false
  loop     : Bool := false
  broken   : Bool := false
  tamper   : Bool := false
  presLate : Bool := false
  changes  : Nat := 0
  deriving DecidableEq, Repr

inductive PwrSt where
  | run | idle | hold
  deriving DecidableEq, Repr

/-- Power state, pending request and last refusal (R421 to R425). `going`: the request has been taken, and the harbour enters the state once
the requests in flight are complete (R423); `off`: the supply is removed (R426); `restored`: it has come back, and start-up has not begun; `pins`: the
outputs ALARM, IRQ and MARGIN_REQ as they stood at the last entry to Hold (R462). -/
structure Pwr where
  state   : PwrSt := .run
  pending : Option PwrSt := none
  reason  : Nat := 0
  going   : Bool := false
  off     : Bool := false
  restored : Bool := false
  pins    : Nat := 0
  deriving DecidableEq, Repr

/-- Sideband filters of logical quay 0 (R462 to R466). `presSince`: duration clock at which PRESENCE was filtered high;
`presForced`: forced low until the raw pin has been low. -/
structure Sb where
  gradeIn    : Nat := 0
  unsettled  : Bool := false
  stuck      : Bool := false
  fsIn       : Bool := false
  fsArmed    : Bool := true
  stopped    : Bool := false
  stopLater  : Bool := false
  presSince  : Option Nat := none
  presForced : Bool := false
  glPresence : Nat := 0
  glLoop     : Nat := 0
  glGrade    : Nat := 0
  glStop     : Nat := 0
  deriving DecidableEq, Repr

/-- Risk grade in force and a lower grade being held (R177, R178). -/
structure Grade where
  eff   : Nat := 0
  lower : Option (Nat × Nat) := none
  deriving DecidableEq, Repr

/-- One TAP of the chain (R427, R428, R461). -/
structure Tap where
  ir      : Nat := 0x01
  bsr     : BitVec 32 := 0
  latch   : BitVec 32 := 0
  drive   : Bool := false
  hiz     : Bool := false
  dr      : Nat := 0
  regOut  : BitVec 64 := 0
  memLine : Line := 0
  memCrc  : Nat := 0
  memPoison : Bool := false
  memValid  : Bool := false
  memStatus : Nat := 0
  memTag  : Option Nat := none
  deriving DecidableEq, Repr

/-- A command on the charter port during a rewrite (R431). -/
inductive FlashCmd where
  | erase (addr : Nat) | zeroPage (addr n : Nat) | program (addr n : Nat) | readBack (addr n : Nat) | header (addr : Nat)
  | readHeader (addr : Nat)
  deriving DecidableEq, Repr

/-- Charter rewrite (R430 to R432). `todo` holds the commands left; the head is in flight. -/
structure Crw where
  src      : Nat := 0
  state    : Nat := 0
  error    : Nat := 0
  copy     : Nat := 0
  progress : Nat := 0
  len      : Nat := 0
  image    : Nat := 0
  gen      : Nat := 0
  kind     : ChKind := .none
  erase    : Option Nat := none
  stop     : Nat := 0
  todo     : List FlashCmd := []
  deriving DecidableEq, Repr

/-! ## Job and membership (05) -/

inductive JobPhase where
  | none | starting | ready | draining
  deriving DecidableEq, Repr

/-- A tombstone (R174): tag and the duration-clock time its drain ended. -/
structure Tomb where
  tag     : Nat
  drained : Option Nat
  deriving DecidableEq, Repr

/-- One piece of the job image being pulled (R169, R170). -/
structure ImgReq where
  piece    : Nat
  from_    : Nat
  since    : Nat
  attempts : Nat
  deriving DecidableEq, Repr

/-- The job-image pull (R168 to R170). `have_` holds pieces by number; `kids` waiting requests of children. -/
structure Image where
  npieces  : Nat := 0
  piece0   : Nat := 0
  parent0  : Nat := 0xFFFFF
  parent1  : Nat := 0xFFFFF
  rootdev  : Nat := 0xFFFFF
  addr     : Nat := 0
  have_    : Tbl Nat Nat := []
  reqs     : List ImgReq := []
  kids     : List (Nat × Nat) := []
  progress : Nat := 0
  failed   : Bool := false
  done     : Bool := false
  deriving DecidableEq, Repr

/-- A join message received (R171): convoy, position, device, UID, CDIGEST. -/
structure Join where
  convoy : Nat
  pos    : Nat
  dev    : Nat
  uid    : Nat
  cdig   : Nat
  deriving DecidableEq, Repr

/-- A packet held in an intake: port position, arrival on the duration clock, what it is (R44, R176). -/
structure Intake where
  pos   : Nat
  since : Nat
  job   : Nat
  frame : Frame
  deriving DecidableEq, Repr

/-- What leaves on the peer port: a frame, or a message the manual gives no layout (log 9), with its destination device. -/
inductive Tx where
  | frame (f : Frame)
  | anchorReq (dst : Nat) (a : AnchorReq)
  | anchorAns (dst : Nat) (a : AnchorAns)
  | resetAns (dst : Nat) (a : ResetAns)
  | freeze (dst : Nat) (m : SalvMsg)
  | frozenA (dst : Nat) (m : SalvMsg)
  | pass (dst : Nat) (m : SalvMsg)
  | chain (dst : Nat) (m : SalvMsg)
  | lines (dst : Nat) (m : SalvMsg)
  | imgReq (dst : Nat) (m : ImgMsg)
  | imgPiece (dst : Nat) (m : ImgMsg)
  deriving DecidableEq, Repr

/-- A held message without a layout (R176). -/
structure HeldMsg where
  pos   : Nat
  since : Nat
  job   : Nat
  msg   : Tx
  deriving DecidableEq, Repr

/-- A convoy entry of the roster (R168). -/
structure RConv where
  cidx : Nat
  k    : Nat
  m    : Nat
  xp   : Nat
  no   : Nat
  mem  : List Nat
  deriving DecidableEq, Repr

/-- A verdict taken (R141): FAIL or PLACE, FAILED, STANDBY, its UID. -/
structure Verdict where
  fail    : Bool
  failed  : Nat
  standby : Nat
  uid     : Nat
  deriving DecidableEq, Repr

/-- The job of the harbour (R141 to R176). `roster` and `rconv` are the roster's device and convoy entries as verdicts have changed
them; `left`: places a FAIL verdict left vacant, as (device, 0 and the rank, or n + 1 and the place in the n-th convoy entry);
`placed`: devices placed by verdicts; `displaced`: (device, quay) lost without relief; `standIns`: (convoy, position, quay)
kept as stand-ins of a device fenced since; `convoyLost`: (quay, convoy) that has found a stripe lost; `verdicts`: those taken before the roster was in. -/
structure Job where
  tag        : Nat := 0
  epoch      : Nat := 0
  phase      : JobPhase := .none
  seed       : Nat := 0
  learners   : Nat := 0
  standby    : Bool := false
  locker     : Bool := false
  startStep  : Nat := 0
  startCursor : Nat := 0
  quiescent  : Option Nat := none
  fenced     : Tbl Nat Nat := []
  roster     : List (Nat × Nat) := []
  rconv      : List RConv := []
  left       : List (Nat × Nat × Nat) := []
  placed     : List Nat := []
  verdicts   : List Verdict := []
  image      : Image := {}
  joins      : List Join := []
  uids       : Tbl (Nat × Nat) Nat := []
  replaced   : List (Nat × Nat) := []
  vacant     : List (Nat × Nat) := []
  refused    : List Nat := []
  restoreBad : Bool := false
  dataDone   : Bool := false
  anchored   : Bool := false
  tombs      : List Tomb := []
  heldJob    : List Intake := []
  heldMsg    : List HeldMsg := []
  noVersion  : Bool := false
  displaced  : List (Nat × Nat) := []
  groupDefs  : Tbl Nat (List Nat) := []
  standIns   : List (Nat × Nat × Nat) := []
  convoyLost : List (Nat × Nat) := []
  deriving DecidableEq, Repr

/-! ## Steps, step log, mooring (04) -/

inductive StState where
  | opened | closed | ready | tallied | aborting
  deriving DecidableEq, Repr

inductive Clr where
  | unknown | clean | failed
  deriving DecidableEq, Repr

/-- A taint held for a step (R116): raising device, collective, line. -/
structure Taint where
  dev  : Nat
  cseq : Nat
  line : Nat
  deriving DecidableEq, Repr

/-- One unmoored step (R97 to R132). Sums per logical quay: NF share, SDIGEST share, speculative log bytes, lines reverted.
`fencedIn`: convoys with a member fenced since the step began; `restore`: the (quay, convoy) whose snapshots have still to be written
back for it (R127). `snapped`: stripes of convoys whose holders are asked to restore them for it; `restarts`: restarts of its replay on a quay (R377). -/
structure StepRec where
  no        : Nat
  state     : StState := .opened
  clr       : Clr := .unknown
  cursor    : Nat := 0
  adv       : Nat := 0
  mbi       : Nat := 0
  skip      : Bool := false
  start     : Nat := 0
  nf        : Tbl Nat Nat := []
  tolNf     : Bool := false
  taints    : List Taint := []
  abortReq  : Nat := 0
  reason    : Nat := 0
  moorSent  : Bool := false
  sealedBy  : List Nat := []
  sdig      : Tbl Nat Nat := []
  spec      : Tbl Nat Nat := []
  votes     : Tbl (Nat × Nat) Line := []
  relays    : List (Nat × Nat × Nat) := []
  relayDue  : List (Nat × Nat) := []
  cand      : Option Line := none
  cause     : Nat := 0
  reverted  : Tbl Nat Nat := []
  replayed  : List Nat := []
  restore   : List (Nat × Nat) := []
  fencedIn  : List Nat := []
  snapped   : List (Nat × Nat) := []
  restarts  : Tbl Nat Nat := []
  deriving DecidableEq, Repr

/-- Steps of the harbour (R97 to R135). `askAbort`: REASON of step-abort manifests read for steps not yet started (R101); `early`:
taints held for such steps (R116); `rebuild`: lines, by quay and address, whose log entries an abort could not read (R127); `mooredAt`: the last steps
moored, newest first, with the launch tides of their deciding tallies (R404). -/
structure Steps where
  last      : Nat := 0
  opened    : Bool := false
  moored    : Nat := 0
  anyMoored : Bool := false
  recs      : List StepRec := []
  aborts    : Tbl Nat Nat := []
  expCursor : Nat := 0
  restored  : Bool := false
  prevRec   : Line := 0
  lastStart : Nat := 0
  lastLen   : Option Nat := none
  stickyAbort : Bool := false
  unknown   : Bool := false
  tallies   : List (Nat × Nat) := []
  replicas  : Tbl (Nat × Nat) (List Line) := []
  records   : List Line := []
  askAbort  : Tbl Nat Nat := []
  early     : Tbl Nat (List Taint) := []
  rebuild   : List (Nat × Nat) := []
  mooredAt  : List (Nat × Nat) := []
  deriving DecidableEq, Repr

/-- A close record (R106, R107); a copy without an LSEQ yet has none in `lseqs`, and zeros in the record's bytes. -/
structure CloseRec where
  ncopy   : Nat
  convoy  : Nat
  didx    : Nat
  stripe  : Nat
  unit    : Nat
  lines   : List Nat
  bodyLen : Nat
  lseqs   : List (Option Seq)
  dpos    : List Nat
  prev    : Nat
  ctide   : Nat
  loffs   : List (Nat × Nat)
  undoOf  : Option Nat
  deriving DecidableEq, Repr

/-- What a log entry holds (R104 to R108, R124). -/
inductive LogBody where
  | line (unit l convoy : Nat) (delta : Line) (void : Bool)
  | close (c : CloseRec)
  | snap (convoy j e l : Nat) (old : Line)
  | batch (n closeOff : Nat) (crcs : List Nat)
  | marker (tide : Nat)
  deriving DecidableEq, Repr

/-- A retained log entry: offset, step and slot of its segment, length in bytes, body. -/
structure LogEntry where
  off  : Nat
  step : Nat
  slot : Nat
  len  : Nat
  body : LogBody
  deriving DecidableEq, Repr

/-- A segment slot of the control block (R103): START, STEP, STATE (1 open, 2 closed, 3 aborting, 4 pinned), replay
position. `left`: line writes of the replay batch not yet accepted, in the quay's registers; `aborted`: pinned after an abort, so
that no point-in-time read takes it (R139). -/
structure Seg where
  slot   : Nat
  start  : Nat
  step   : Nat
  state  : Nat
  runit  : Nat := 0
  rbatch : Nat := 0
  left   : Nat := 0
  aborted : Bool := false
  deriving DecidableEq, Repr

/-- The step log of one port position (R102 to R110). It lies in memory and survives relief. -/
structure Log where
  tail      : Nat := 0
  head      : Nat := 0
  segs      : List Seg := []
  entries   : List LogEntry := []
  exhausted : Bool := false
  deriving DecidableEq, Repr

/-! ## Convoy coding (03) -/

/-- A line of a lighter: line within the unit, delta, offset of its log entry. -/
structure LLine where
  l     : Nat
  delta : Line
  off   : Nat
  deriving DecidableEq, Repr

inductive CopySt where
  /-- No LSEQ assigned yet. -/
  | waiting
  /-- Sent and unacknowledged. -/
  | sent
  /-- Acknowledged APPLIED or DUPLICATE. -/
  | acked
  /-- Retired by re-anchoring, waiting for ANCHOR_DONE. -/
  | retired
  /-- Not sent again: answered NOT_MEMBER. -/
  | refused
  deriving DecidableEq, Repr

/-- One copy of a lighter or a vote (R76, R84 to R87). `numbered` once it has its LSEQ; `since`: duration clock at which it left the peer
port. -/
structure Copy where
  dev     : Nat
  dpos    : Nat
  j       : Nat
  lseq    : Seq := 0
  numbered : Bool := false
  st      : CopySt := .waiting
  since   : Option Nat := none
  tries   : Nat := 0
  ahead   : Bool := false
  waitEpoch : Option Nat := none
  deriving DecidableEq, Repr

/-- What a stream packet of TYPE 0x1 or 0x2 carries at the sender. -/
inductive LKind where
  | delta (lines : List LLine)
  | vote (vkind vpos : Nat) (record : Option Line) (bodyLen uid cdig : Nat)
  deriving DecidableEq, Repr

/-- A closed lighter or vote lighter and its copies (R74 to R87). `closeOff`: offset of its close record; `recorded` once the
record's append is acknowledged; `waitRec` while a freeze holds the record back, `begun` once a copy has an LSEQ (R153). `sentTide`:
duration clock at its first sending (R38, R87). -/
structure Lighter where
  id      : Nat
  convoy  : Nat
  unit    : Nat
  didx    : Nat
  stripe  : Nat
  step    : Nat
  undo    : Bool := false
  relief  : Bool := false
  kind    : LKind
  copies  : List Copy := []
  closeOff : Nat := 0
  recorded : Bool := false
  waitRec  : Bool := false
  begun    : Bool := false
  sentTide : Option Nat := none
  restarts : Nat := 0
  deriving DecidableEq, Repr

/-- An open lighter (R74); `id` is that of the lighter it closes as. -/
structure OpenL where
  id     : Nat
  convoy : Nat
  unit   : Nat
  step   : Nat
  first  : Nat
  lines  : List LLine
  deriving DecidableEq, Repr

/-- An outgoing stream to one device (R81, R93). -/
structure OutStream where
  next   : Seq := 0
  frozen : Bool := false
  touts  : Nat := 0
  logged : Bool := false
  deriving DecidableEq, Repr

/-- An incoming stream from one device (R82). `map` lists applied LSEQs at or above B. -/
structure InStream where
  base   : Seq := 0
  map    : List Seq := []
  errLogged : Bool := false
  deriving DecidableEq, Repr

/-- Why a stripe is anchoring. -/
inductive AnchCause where
  | lost | relief | dredge | jobStart | xparity
  deriving DecidableEq, Repr

/-- An anchoring in progress at the holder (R91, R94). `unsent`: requests that have still to leave the peer port; `since`: when the last left. -/
structure Anchor where
  convoy  : Nat
  stripe  : Nat
  j       : Nat
  cause   : AnchCause
  asked   : List Nat
  answers : List AnchorAns := []
  unsent  : Nat := 0
  since   : Option Nat := none
  tries   : Nat := 0
  restarts : Nat := 0
  deriving DecidableEq, Repr

/-- Why an arrived lighter is held (R89, R93, R108, R154, R308). -/
inductive HoldWhy where
  | anchoring | segment | space | pass | berth | page
  deriving DecidableEq, Repr

/-- A lighter held at the holder. -/
structure HeldL where
  frame : Frame
  why   : HoldWhy
  since : Nat
  deriving DecidableEq, Repr

/-- A unit frozen for a pass (R153), with the pass's number and the roles it rebuilds; `part`: the pass is for lines of the unit (R156). -/
structure Frozen where
  no     : Nat
  lost   : List Nat
  convoy : Nat
  stripe : Nat
  unit   : Nat
  by_    : Nat
  since  : Nat
  part   : Bool := false
  answered : Bool := false
  deriving DecidableEq, Repr

/-- Copies a snapshot restore answers DUPLICATE (R127): source, convoy, restored steps, stripes, MARK. -/
structure RestoreMark where
  src     : Nat
  convoy  : Nat
  steps   : List Nat
  stripes : List Nat
  mark    : Seq
  deriving DecidableEq, Repr

/-- An append to the step log whose writes are unanswered, and what it releases (R29 stage 6, R74, R107). -/
inductive LogCont where
  | none | op (id : Nat) | lighter (id : Nat)
  deriving DecidableEq, Repr

structure Append where
  id   : Nat
  left : Nat
  cont : LogCont
  deriving DecidableEq, Repr

/-- A stream reset sent to one source (R93, R127): its convoy, whether it has answered, the stripes it listed, the steps of a
restore and the one stripe it is for (none: all of the convoy's), when it last left the peer port and how often it went unanswered. -/
structure Reset where
  dev     : Nat
  convoy  : Nat
  mark    : Option Seq := none
  stripes : List (Nat × Nat) := []
  restore : List Nat := []
  only    : Option Nat := none
  since   : Option Nat := none
  tries   : Nat := 0
  deriving DecidableEq, Repr

/-- A helper's place in a chain (R157): the pass it was sent, its own scaled piece once read, and the sums come from the hop before, none
to wait for at the first. -/
structure HopPart where
  msg  : SalvMsg
  mine : Option (List (List Line)) := none
  got  : Option (List (List Line)) := none
  deriving DecidableEq, Repr

/-- What a channel command is for: an operation, a log append, parity of an applied lighter, a write-back of
the combining buffer, a page transfer of the hold, another structure of the quay, a line reverted by the replay of the segment in a
slot (R124), a rebuilt line of a convoy's piece (R158), or one of the two rings of R371: the producer line of the event ring, its
record SEQ (the producer line written after it carries the same number), or a fault signature. -/
inductive McUse where
  | op (id : Nat)
  | log (append : Nat)
  | parity (id : Nat)
  | comb (addr : Nat)
  | page (pg : Nat)
  | own
  | replay (slot : Nat)
  | rebuilt (convoy no : Nat) (line : Option Nat)
  | evRing (seq : Nat)
  | evRec (seq : Nat)
  | fsigRing (seq : Nat)
  deriving DecidableEq, Repr

/-- Convoy coder of one quay (R74 to R96). `ansWait`: anchor requests not yet answered, since a line of the unit is open or
the check shadow is not yet made (R92, R495); `passWait`: passes that wait for a line of their unit (R153); `parts`: chains this quay
helps; `lateAns`: anchor answers that wait for a berth (R308); `ovfPut`: log bytes that wait for the overflow area's staging berth, as offset, length,
bytes and use (R308, R320). -/
structure Conv where
  opened   : List OpenL := []
  sent     : List Lighter := []
  outS     : Tbl Nat OutStream := []
  inS      : Tbl Nat InStream := []
  anch     : List Anchor := []
  heldL    : List HeldL := []
  frozen   : List Frozen := []
  sealLate : Bool := false
  marks    : List RestoreMark := []
  resets   : List Reset := []
  ansWait  : List AnchorReq := []
  passWait : List SalvMsg := []
  parts    : List HopPart := []
  lateAns  : List AnchorAns := []
  appends  : List Append := []
  ovfPut   : List (Nat × Nat × Nat × McUse) := []
  nextId   : Nat := 0
  deriving DecidableEq, Repr

/-- One pass of salvage or audit on a stripe (R153, R156, R349): its number and the device that runs it, another standby where one
chain rebuilds two lost pieces (R157); `lines` of the unit a demand pass rebuilds, none for a whole piece. Pieces are named by their role in
the stripe: data index i, or k + j for parity j (R67); `lost` are rebuilt, `helpers` read, `bad` unavailable. `frozen`: devices that
answered, with their MARK. -/
structure Pass where
  no      : Nat
  home    : Nat
  convoy  : Nat
  stripe  : Nat
  audit   : Bool
  lines   : List Nat
  lost    : List Nat
  helpers : List Nat
  frozen  : List (Nat × Seq) := []
  passed  : Bool := false
  pieces  : Tbl Nat (List Line) := []
  bad     : List Nat := []
  restarts : Nat := 0
  since   : Nat := 0
  again   : Bool := false
  deriving DecidableEq, Repr

/-- Salvage of one quay: passes in progress and the progress map of its port position (R151 to R158): units (convoy, d or
D + e), single lines, and lines rebuilt on demand whose operations have still to go on. `spool`: what arrived for the background
passes while they are parked (R58); `waitL`: lines of a stripe whose demand pass waits for berths of the reserve, as convoy, stripe, roles and
lines (R307); `tries`: restarts of its parking (R377). -/
structure Salv where
  passes  : List Pass := []
  units   : List (Nat × Nat) := []
  lines   : List (Nat × Nat × Nat) := []
  rebuilt : List (Nat × Line) := []
  spool   : List Tx := []
  waitL   : List (Nat × Nat × List Nat × List Nat) := []
  parked  : Bool := false
  mark    : Bool := false
  tries   : Nat := 0
  deriving DecidableEq, Repr

/-! ## Write and read path (01, 11, 15) -/

/-- Where an operation comes from, and how to answer it. -/
inductive Src where
  | cp (lane tag : Nat)
  | remote (hdr : BitVec 384) (item : Nat) (tagged : Nat)
  | opt (tag step : Nat)
  | coll (cseq line : Nat) (res : Bool)
  | group
  | flip
  | debug (p : Nat)
  | locker
  | comb
  deriving DecidableEq, Repr

inductive OpKind where
  | read (fmt : Nat)
  | write (mask : BitVec 128) (data : Line) (poison : Bool)
  | atomic (op type : Nat) (noret : Bool) (operand compare : Nat)
  deriving DecidableEq, Repr

/-- Where an operation stands (R29, R30). -/
inductive Stage where
  /-- Not yet classified: the step is not OPEN, or the quay is under relief (R28, R163). -/
  | waitOpen
  /-- Behind an earlier operation on its line (R30). -/
  | queued
  /-- Held by the flip, an open tile, or a hold page (R295, R342, R322). -/
  | waitFlip | waitTile | waitPage
  /-- Its line is being rebuilt (R30, R156). -/
  | waitSalvage
  /-- Read command unanswered. -/
  | reading
  /-- The log append waits for space (R110). -/
  | waitLog
  /-- The log append is unanswered. -/
  | logging
  /-- The new-line write is unanswered. -/
  | writing
  /-- The new line is accepted; its delta waits for the berth of its lighter's body (R74, R308). -/
  | waitBody
  /-- Done but for the acknowledgement withheld by seal lag (R88). -/
  | withheld
  deriving DecidableEq, Repr

/-- An operation in the open-line table or its queue (R29, R30). `ord`: its place in the order of that table, taken by a read when
it comes and by a protected write when it is classified; `win`: the lock-step window its digest went into (R358); `nw`: the key its
elements are counted under (R207); `snap`: lines as the combining buffer held them when a read took its place among the merges (R266, R304). -/
structure Op where
  id     : Nat
  src    : Src
  kind   : OpKind
  addr   : Nat
  stage  : Stage
  step   : Option Nat := none
  ord    : Option Nat := none
  win    : Nat := 0
  nw     : Option Nat := none
  snap   : List (Nat × Line × Bool) := []
  old    : Line := 0
  new    : Line := 0
  off    : Nat := 0
  left   : Nat := 0
  bad    : Bool := false
  priv   : Bool := false
  master : Nat := 0
  deriving DecidableEq, Repr

/-- An operation of a source other than the compute port that has ended: its source takes the outcome (R29 stage 8). -/
structure Fin where
  src    : Src
  addr   : Nat
  status : Nat
  data   : Line := 0
  poison : Bool := false
  deriving DecidableEq, Repr

/-- The data of a channel write; `old`, `oldPoison` restore the line if it is answered ERROR (R443). -/
structure McData where
  mask   : BitVec 128
  data   : Line
  poison : Bool
  old    : Line
  oldPoison : Bool
  deriving DecidableEq, Repr

/-- A channel command, in order of issue: not yet sent while `tag` is none, since an earlier command on its line is
unanswered (R444); then unanswered. A write carries its data. -/
structure McCmd where
  tag   : Option Nat
  addr  : Nat
  wr    : Option McData
  use   : McUse
  since : Nat
  deriving DecidableEq, Repr

/-- An acknowledgement of an applied lighter that waits for its parity writes (R84). -/
structure ParityAck where
  id    : Nat
  left  : Nat
  dev   : Nat
  quay  : Nat
  job   : Nat
  lseq  : Seq
  deriving DecidableEq, Repr

/-- A compute-port response given (R438, R440). -/
structure CpRsp where
  pos    : Nat
  lane   : Nat
  tag    : Nat
  status : Nat
  data   : Line := 0
  crc    : Nat := 0
  poison : Bool := false
  deriving DecidableEq, Repr

/-- An open or judged tile (R341, R342): base address, lines written, opening time; `bad` after a failed or skipped check. -/
structure TileSt where
  base  : Nat
  entry : Nat
  lines : List Nat
  since : Nat
  deriving DecidableEq, Repr

/-! ## Remote memory (08) -/

inductive OotSt where
  /-- Withheld behind earlier items (R259, R260) or behind CREDIT (R252). -/
  | held
  | sent
  /-- Re-sent once the epoch reaches the value (R251). -/
  | epoch (e : Nat)
  deriving DecidableEq, Repr

/-- An outstanding remote item at its source (R252, R254). `born`: duration clock at which it was first sent; `berth`: the work of the
berth that retains it, shared with other items (R308). -/
structure Oot where
  tag    : Nat
  req    : CpReq
  kind   : Nat
  rseq   : Seq := 0
  quay   : Nat
  job    : Nat
  itide  : Nat := 0
  born   : Nat := 0
  since  : Nat := 0
  st     : OotSt := .held
  gen    : Nat := 0
  order  : Nat := 0
  berth  : Nat := 0
  deriving DecidableEq, Repr

/-- A source stream to one device and logical quay (R252). -/
structure RStream where
  next   : Seq := 0
  credit : Nat := 64
  deriving DecidableEq, Repr

/-- A target stream record (R255). `applied`: offsets from B applied; `pend`: RSEQs merged and not written back. -/
structure RmtRec where
  idx     : Nat
  job     : Nat
  dev     : Nat
  quay    : Nat
  base    : Seq
  applied : List Nat := []
  ltouch  : Nat
  pend    : List Seq := []
  errLogged : Bool := false
  deriving DecidableEq, Repr

/-- A reply-cache entry (R257). -/
structure RcEnt where
  recI   : Nat
  rseq   : Seq
  status : Nat
  old    : Nat
  deriving DecidableEq, Repr

/-- A pending item of a combining entry (R266, R267); `cached` once the reply cache has been written for it (R257). -/
structure CombItem where
  src  : Src
  kind : OpKind
  addr : Nat
  status : Nat
  old  : Nat
  cached : Bool := false
  deriving DecidableEq, Repr

/-- A combining-buffer entry (R266, R267); `ready` once the items queued before it are done, `waiting` those since. -/
structure Comb where
  addr   : Nat
  value  : Line
  poison : Bool
  ready  : Bool := false
  waiting : List Op := []
  items  : List CombItem := []
  flushing : List CombItem := []
  first  : Option Nat := none
  last   : Nat
  deriving DecidableEq, Repr

/-- A cached remote line (R261): key (JOB, DEV, WIN, OFFSET, format), most recently used first in the set's order; `fill`: the tag of the
read that brought it. -/
structure RrcLine where
  job  : Nat
  dev  : Nat
  win  : Nat
  off  : Nat
  fmt  : Nat
  data : Line
  fill : Nat := 0
  deriving DecidableEq, Repr

/-- An arrived item held at the target (R247, R258): its packet and number; `epoch` while it waits for the epoch. -/
structure RHeld where
  frame : Frame
  num   : Nat
  since : Nat
  epoch : Bool
  deriving DecidableEq, Repr

/-- Remote memory of one quay (R243 to R271). `streams`: those of which the quay is source, by job, device and logical quay; `turns`: the
streams of which the intake has taken a held item, by job, device and logical quay, the latest taken first (R268); `file`: the records that
the register file holds, by index, the latest used first: 1,024 at most (R255). -/
structure Rmt where
  oot    : List Oot := []
  streams : Tbl (Nat × Nat × Nat) RStream := []
  rrc    : List RrcLine := []
  gen    : Nat := 0
  recs   : List RmtRec := []
  file   : List Nat := []
  reply  : List RcEnt := []
  held   : List RHeld := []
  turns  : List (Nat × Nat × Nat) := []
  comb   : List Comb := []
  nextTag : Nat := 0
  nextOrd : Nat := 0
  deriving DecidableEq, Repr

/-! ## Berths (10) -/

inductive Owner where
  | lighter | intake | anchor | accum | staging | retained | combine | background | flush | dredge | page | spill | spool | chunk | relay | demand | ovf
  deriving DecidableEq, Repr

/-- An allocated berth (R311): pool, tier (true memory), index, generation, COUNT, owner class and work, the check values kept with its
lines (R328), and a count of the writes into it (R338). -/
structure Berth where
  pool  : Nat
  mem   : Bool
  idx   : Nat
  gen   : Nat
  count : Nat
  owner : Owner
  work  : Nat
  crcs  : List Nat := []
  wr    : Nat := 0
  deriving DecidableEq, Repr

/-- A waiting berth request (R310). -/
structure BReq where
  pool  : Nat
  owner : Owner
  work  : Nat
  deriving DecidableEq, Repr

/-- The six pools of a quay (R305 to R315). The salvage reserve of P2 is no part of them: each demand pass under way holds one of
its eight berths (R307). `handles`: what each piece of work holds of the berths given to it, by owner, work and handle (R311). -/
structure Pools where
  live    : List Berth := []
  handles : List (Owner × Nat × Nat) := []
  gens    : Tbl (Nat × Bool × Nat) Nat := []
  queue   : List BReq := []
  level   : Tbl Nat Nat := []
  deriving DecidableEq, Repr

/-! ## Integrity (11) -/

/-- The suspect state of one unit (R346). -/
structure Susp where
  st     : Nat := 0
  count  : Nat := 0
  settle : Option Nat := none
  hold   : Option Nat := none
  lastKat : Nat := 0
  deriving DecidableEq, Repr

/-! ## Events (12) -/

/-- An event record (R360). -/
structure EvRec where
  code    : Nat
  sev     : Nat
  summary : Bool := false
  nested  : Bool := false
  sampled : Bool := false
  pquay   : Nat
  lquay   : Nat
  depth   : Nat := 0
  job     : Nat
  epoch   : Nat
  step    : Nat
  count   : Nat := 1
  tide    : Nat
  ltide   : Nat
  arg0    : Nat
  arg1    : Nat
  deriving DecidableEq, Repr

/-- Event state of one quay (R366 to R368). `seen`: events of each code in the storm window; `cells`: summary cells;
`mixed`: the mixed cell of a severity with the codes merged in it; `bufMixed`: the codes of the mixed record in a full buffer; `win`: the storm window these counts began in. -/
structure QEv where
  errq    : List EvRec := []
  errqOvf : Bool := false
  errqMixed : List Nat := []
  buf     : List EvRec := []
  bufMixed : List Nat := []
  seen    : Tbl Nat Nat := []
  cells   : List EvRec := []
  mixed   : List (Nat × EvRec × List Nat) := []
  win     : Nat := 0
  deriving DecidableEq, Repr

/-- Events of a source that no record carries yet: how many since sampling last wrote one, how many in all, and the tide of the first (R369). -/
structure Sample where
  phase : Nat := 0
  left  : Nat := 0
  tide  : Nat := 0
  deriving DecidableEq, Repr

/-- A fault signature within its scan period (R354): class, unit, address, record number, occurrences. -/
structure Sig where
  cls   : Nat
  unit  : Nat
  addr  : Nat
  seq   : Nat
  count : Nat
  deriving DecidableEq, Repr

/-- Harbour event state (R364 to R373, R494). `prod` counts records written; `cons` is CONS last read. `evFail`: the event
ring is out of reach; `fsFail`: the fault-signature ring is, with the record kept for the retry. `gap`: TRACE, NOTICE,
ERROR and ALARM records not written. `unread`: record number of unread records, and the duration clock when each
was written. `retry`: retried writes of either ring not yet answered; `told`: the counts of the EVT_GAP record among them, `gapSent` that record;
`fsBuf`: signatures by SEQ that wait until logical quay 0 can write them. -/
structure Ev where
  prod     : Nat := 0
  cons     : Nat := 0
  reach    : Bool := false
  evFail   : Bool := false
  fsFail   : Option (Nat × Nat) := none
  full     : Bool := false
  gap      : Tbl Nat Nat := []
  samples  : Tbl (Nat × Nat) Sample := []
  alarm    : Word := 0
  irqStat  : BitVec 4 := 0
  irqMask  : BitVec 4 := 0
  fsSeq    : Nat := 0
  fsMerge  : List Sig := []
  unread   : List (Nat × Nat) := []
  retry    : List McUse := []
  told     : Tbl Nat Nat := []
  gapSent  : Option EvRec := none
  fsBuf    : Tbl Nat Nat := []
  deriving DecidableEq, Repr

/-- Counters of one quay (R378 to R381, R490). -/
structure Cnt where
  live   : Tbl Nat Nat := []
  sel    : Tbl Nat Word := []
  amatch : Tbl Nat Word := []
  amask  : Tbl Nat Word := []
  wrap   : Word := 0
  irqEn  : Word := 0
  hold   : Tbl Nat Nat := []
  holdWrap : Word := 0
  deriving DecidableEq, Repr

/-- Snapshot control (R381, R382). `writing`: the image is on its way to memory. -/
structure Snap where
  busy  : Bool := false
  user  : Bool := false
  clear : Bool := false
  at_   : Nat := 0
  stide : Nat := 0
  sseq  : Nat := 0
  writing : Bool := false
  deriving DecidableEq, Repr

/-! ## Ports (15) -/

/-- A deficit round robin between waiting queues (R239, R450): the deficit of each, the round last served, and the queue
whose turn it is. -/
structure Drr where
  deficit : Tbl Nat Nat := []
  keys    : List Nat := []
  turn    : Option Nat := none
  deriving DecidableEq, Repr

/-- The peer port of one position (R446 to R452). `xbar`, `xmsg`: what arrives while the bypass crossbar switches (R435); `sent`: what has left, newest first; `grant`: credits the interface
holds; `kept`: receive credits withheld (R313); `sched` shares the port between channels 1 to 7, `slots` channel 3 between
collectives. -/
structure Peer where
  up    : Bool := false
  sched : Drr := {}
  slots : Drr := {}
  crd   : Tbl Nat Nat := []
  txq   : List (Nat × Tx) := []
  sent  : List Tx := []
  grant : Tbl Nat Nat := []
  kept  : Tbl Nat Nat := []
  xbar  : List Frame := []
  xmsg  : List Tx := []
  deriving DecidableEq, Repr

/-- What a ring frame carries, by the classes of R22; the manual gives the bytes after its header no layout (log 10). -/
inductive RingMsg where
  | fence (dev : Nat)
  | taint (step : Nat)
  | collAbort (cseq : Nat)
  | sealed (step : Nat)
  | voted (step : Nat)
  | handover (lq : Nat)
  | lighters (n : Nat)
  | collsOpen (lq : Nat)
  | charter
  | snapshot (at_ : Nat)
  | event (code : Nat)
  | power (to_ : Nat)
  | security (to_ : Nat)
  | tideFault
  | manifest (type seq : Nat)
  | heldManifest (seq : Nat)
  | flipped (layer : Nat)
  | weightRead (layer : Nat)
  | stage (len : Nat)
  | heartbeat
  | numerics (step : Nat)
  | coll (len pkt : Nat)
  deriving DecidableEq, Repr

/-- A ring frame waiting or sent on a link end (R454); DST 0x1F for every quay. -/
structure RingFrame where
  dst  : Nat
  src  : Nat
  cls  : Nat
  hops : Nat
  len  : Nat
  msg  : RingMsg
  deriving DecidableEq, Repr

/-- A ring link end (R453); `slots` shares its collective class between collectives (R239). `cur` is the frame being sent, with `left`
flits still to go: frames are not interleaved. -/
structure RingEnd where
  slots : Drr := {}
  crd  : Tbl Nat Nat := []
  txq  : List RingFrame := []
  cur  : Option RingFrame := none
  left : Nat := 0
  sent : List RingFrame := []
  deriving DecidableEq, Repr

inductive ReliefSt where
  | spare | switching | loading | resync | inService
  deriving DecidableEq, Repr

/-! ## Quays -/

/-- Numeric counts of one tag in one step or version (R206). -/
structure NwCnt where
  zero : Nat := 0
  sat  : Nat := 0
  sub  : Nat := 0
  nf   : Nat := 0
  max  : Nat := 0
  clip : Bool := false
  deriving DecidableEq, Repr

/-- A dredge's positions (R348): patrol word, scrub line, and audit stripe in the order of R348; `retry`: stripes whose audit ended
unjudged (R351); `wait`: stripes whose berth is still asked for (R308). -/
structure Dredge where
  patrol : Nat := 0
  scrub  : Nat := 0
  audit  : Nat := 0
  retry  : List (Nat × Nat) := []
  wait   : List (Nat × Nat) := []
  parked : Bool := false
  mark   : Bool := false
  deriving DecidableEq, Repr

/-- One physical quay (`was`: the logical index a quay declared failed held; `flips`: codewords of the staging SRAM written under an armed flip mask, as target, item and number of
bits flipped, R335 to R338; `fatal`: 1 a fatal internal error is reported, 2 the same with QUAY_FAILED logged; `noFrame`: pages whose demand promotion waits for a frame, `pageTries`: restarts of a page's write-back, R376, `pageWait`: rebuilt lines of the hold that wait for
one, as address, line and what the write is for, R323, `badLoad`: lines of cold parity that failed their check on a load, R322; `glitch`: units whose next operation meets an error of their arithmetic, R329, R337, R345): register file, staging SRAM and the work in hand, all lost at relief (R164). -/
structure Quay where
  enabled   : Bool := false
  inService : Bool := false
  chkFail   : Bool := false
  cfgIgn    : Bool := false
  lq        : Option Nat := none
  failed    : Bool := false
  was       : Option Nat := none
  hb        : Nat := 0
  qcfg      : Tbl Nat Word := []
  params    : Tbl Param PVal := []
  cfgErr    : List Nat := []
  paramKey  : Word := 0
  paramHi   : Option Word := none
  susp      : Tbl Nat Susp := []
  flip0     : Word := 0
  flip1     : Word := 0
  flip2     : Word := 0
  flips     : List (Nat × Nat × Nat) := []
  latch     : Tbl Nat Word := []
  ev        : QEv := {}
  cnt       : Cnt := {}
  ops       : List Op := []
  ordNo     : Nat := 0
  fin       : List Fin := []
  fatal     : Nat := 0
  mc        : List McCmd := []
  mcTag     : Nat := 0
  opId      : Nat := 0
  lostLines : List Nat := []
  tiles     : List TileSt := []
  badTiles  : List Nat := []
  conv      : Conv := {}
  shadow    : List (Nat × Line) := []
  packs     : List ParityAck := []
  salv      : Salv := {}
  rmt       : Rmt := {}
  pools     : Pools := {}
  nw        : Tbl (Nat × Nat) NwCnt := []
  dredge    : Dredge := {}
  noFrame   : List Nat := []
  pageTries : Tbl Nat Nat := []
  pageWait  : List (Nat × Line × McUse) := []
  badLoad   : List Nat := []
  glitch    : List Nat := []
  deriving DecidableEq, Repr

/-- A relief in progress (R163): relief quay, failed quay, logical index, state, declaration tide, and the failed quay as it was:
its tables and what the harbour still knows of its streams and maps (R95, R158, R163). -/
structure Relief where
  p      : Nat
  failed : Nat
  lq     : Nat
  st     : ReliefSt
  since  : Nat
  old    : Quay := {}
  deriving DecidableEq, Repr

/-- A migration-table entry (R321). PIN is set while the page's layer lies within the prefetch window (`pin`), or a write or lighter waits
for it or is applied to it (`want`, R323). -/
structure PageEnt where
  st     : Nat := 0
  pin    : Bool := false
  want   : Bool := false
  pf     : Bool := false
  redirty : Bool := false
  rcount : Nat := 0
  frame  : Nat := 0
  deriving DecidableEq, Repr

/-- What lies in memory structures of one port position beside `mem` and survives relief: the step log, hold pages
(R103, R321), scale-presence map (R303), windows of lock-step sums. -/
structure PortSt where
  log    : Log := {}
  pages  : Tbl Nat PageEnt := []
  hand   : Nat := 0
  recent : List Nat := []
  cursor : Option Nat := none
  scales : List Nat := []
  mirrorOk : List Nat := []
  refrVer : Tbl Nat Nat := []
  lockD  : Tbl Nat Nat := []
  lockW  : Tbl Nat Nat := []
  peer   : Peer := {}
  deriving DecidableEq, Repr

/-! ## Optimizer (06) -/

/-- An optimizer descriptor (R183), as its payload's fields. -/
structure Desc where
  kind   : Nat
  sparse : Bool
  bc     : Bool
  m1     : Option Nat
  m2     : Option Nat
  grad   : Nat
  lrExp  : Int
  beta1  : Nat
  beta2  : Nat
  eps    : Nat
  wd     : Nat
  mu     : Nat
  birth  : Nat
  deriving DecidableEq, Repr

/-- One quay's share of a bucket (R115, R190): `bk` the bucket's number, `resv` the lines whose log bytes it has reserved, `next` the next local line, `left` lines left, `first` the tensor line index of
the quay's local line 0, `admitted` past the gate, `gap` once the state line is written, `wait` writes under way, `final` once
TOUCHED is being written. -/
structure Share where
  bk     : Nat := 0
  pos    : Nat
  tag    : Nat
  step   : Nat
  next   : Nat
  left   : Nat
  resv   : Nat := 0
  first  : Nat
  lr     : Nat
  gscale : Nat
  admitted : Bool
  done   : Nat
  nfLogged : Bool := false
  gap    : Option Nat := none
  wait   : Nat := 0
  final  : Bool := false
  held   : List Nat := []
  ord    : Nat := 0
  deriving DecidableEq, Repr

structure Opt where
  descs   : Tbl Nat Desc := []
  shares  : List Share := []
  buckets : Nat := 0
  touched : Tbl (Nat × Nat × Nat) Nat := []
  faults  : List LaneFault := []
  deriving DecidableEq, Repr

/-- Numeric shares still to be merged (R207): the step, the STATE its entry will carry (1 closed, 2 moored, 3 aborted; R210), and
how many attempts of the step were aborted before this one (R209). -/
structure NumShare where
  step    : Nat
  state   : Nat
  attempt : Nat
  deriving DecidableEq, Repr

/-- The numerics history's state outside memory; `incomplete` lists the keys of counts that lost a quay's share (R213); `slots` the slot of
the CLOSED entry this job has written for a tag and key (R210, R212); `flips`: flips, from one version to another, whose entries wait for
logical quay 0 to serve (R213). -/
structure Num where
  pending : List NumShare := []
  incomplete : List Nat := []
  slots   : Tbl (Nat × Nat) Nat := []
  flips   : List (Nat × Nat) := []
  deriving DecidableEq, Repr

/-! ## Collectives (07) -/

/-- A launch's fields (R220). -/
structure Launch where
  gid : Nat
  op : Nat
  deliver : Bool
  shard : Bool
  skipz : Bool
  mark : Nat
  nocpl : Bool
  cseq : Nat
  ltide : Nat
  e : Int
  ifmt : Nat
  ofmt : Nat
  srcQuay : Nat
  dstQuay : Nat
  count : Nat
  root : Nat
  srcAddr : Nat
  dstAddr : Nat
  cplAddr : Nat
  step : Nat
  ldigest : Nat
  deriving DecidableEq, Repr

/-- An accumulator cell (R234): the 96-bit sum as an exact integer, and the flags. -/
structure Cell where
  acc    : Int := 0
  nan    : Bool := false
  pinf   : Bool := false
  ninf   : Bool := false
  oor    : Bool := false
  poison : Bool := false
  deriving DecidableEq, Repr

/-- What a receiver has of one originator (R230): lines accepted, LSUM, END's counts. -/
structure OrigSt where
  lines  : Nat := 0
  lsum   : Nat := 0
  end_   : Option (Nat × Nat) := none
  deriving DecidableEq, Repr

/-- Lines a member refused as stale, to be sent again (R229): member device and logical quay, packet kind, originator, offset,
count, and the epoch to reach. -/
structure StaleReq where
  dev   : Nat
  dq    : Nat
  kind  : Nat
  sidx  : Nat
  off   : Nat
  n     : Nat
  epoch : Nat
  deriving DecidableEq, Repr

/-- What a member has sent of its contribution or block to one target (R230, R242): the chunks looked at, the lines and LSUM sent, the
epoch each chunk was sent in (2 ^ 32 for one not sent), and whether END went. -/
structure SentSt where
  next   : Nat := 0
  lines  : Nat := 0
  lsum   : Nat := 0
  epochs : List Nat := []
  ended  : Bool := false
  deriving DecidableEq, Repr

inductive CollPhase where
  /-- In the slot queue (R225). -/
  | queued
  /-- In a slot, waiting for berths. -/
  | berths
  /-- A clearance tally with slot and berths, whose step has not started here (R112). -/
  | step
  | running
  deriving DecidableEq, Repr

/-- A launched collective (R225 to R242). `own` and `res` hold a tally's own contribution and its result, which lie in no memory (R223);
`waits`: since when it waits for berths while it runs (R240). -/
structure Coll where
  l       : Launch
  phase   : CollPhase
  nmemb   : Nat
  me      : Nat
  fanout  : Nat
  weight  : Nat
  ranks   : List Nat
  orig    : Tbl Nat OrigSt := []
  cells   : Tbl Nat Cell := []
  finished : Bool := false
  gotRes  : Tbl Nat Nat := []
  finish  : List Nat := []
  contributed : Bool := false
  written : Nat := 0
  pendingWr : Nat := 0
  lastPkt : Nat := 0
  parked  : Option Nat := none
  mark    : Bool := false
  spool   : List Intake := []
  taint   : Bool := false
  nf      : Bool := false
  poison  : Bool := false
  stale   : List StaleReq := []
  sentTo  : Tbl Nat SentSt := []
  ownWr   : Nat := 0
  finSent : Bool := false
  own     : Option Line := none
  res     : Option (Line × Bool) := none
  waits   : Option Nat := none
  wantOut : Bool := false
  wantIn  : Bool := false
  saved   : List (Berth × Nat) := []
  merging : Bool := false
  serving : List Nat := []
  deriving DecidableEq, Repr

/-- An abort packet still to be re-sent (R149): CSEQ, targets, packet, when it was detected and the tide it carries, copies sent. -/
structure AbortSend where
  cseq  : Nat
  devs  : List Nat
  cause : Nat
  gid   : Nat
  step  : Nat
  d     : Nat
  tide  : Nat
  sent  : Nat
  deriving DecidableEq, Repr

structure CollSt where
  run     : List Coll := []
  ended   : List Nat := []
  highL   : Nat := 0
  highC   : Nat := 0
  early   : List Intake := []
  earlyLogged : List Nat := []
  resend  : List AbortSend := []
  deriving DecidableEq, Repr

/-! ## Refresh (09) -/

/-- The record of a staged refresh lighter in a quay's ring, or of the part of it whose blocks lie there (R288): `off` where it begins, counted
on from the ring's first record without regard to its end, `blocks` with where each begins. -/
structure Staged where
  pos     : Nat
  src     : Nat
  quay    : Nat
  entry   : Nat
  version : Nat
  full    : Bool
  gtag    : Nat
  fmt     : Nat
  fseq    : Nat
  blocks  : List (Nat × Nat)
  off     : Nat
  bytes   : Nat
  deriving DecidableEq, Repr

/-- An END received (R289). -/
structure EndRec where
  src     : Nat
  quay    : Nat
  entry   : Nat
  version : Nat
  full    : Bool
  void    : Bool
  count   : Nat
  qmask   : Nat
  deriving DecidableEq, Repr

/-- A layer schedule in force (R285 to R287). -/
structure Sched where
  layers  : List (Nat × Nat × Nat × Nat)
  entries : List Nat
  sources : List (Nat × Nat)
  deriving DecidableEq, Repr

/-- The open pass (R291 to R295). `p`: highest schedule entry reached, none at open. -/
structure PassSt where
  version : Nat
  p       : Option Nat := none
  mixed   : Bool := false
  w       : Option Nat := none
  fixed   : Bool := false
  past    : Tbl Nat Nat := []
  deriving DecidableEq, Repr

/-- A refresh share being sent (R277, R284): port position, entry, version, full, direct destination device and quay. -/
structure RefrShare where
  pos    : Nat
  entry  : Nat
  step   : Nat
  full   : Bool
  direct : Option (Nat × Nat)
  restarts : Nat := 0
  deriving DecidableEq, Repr

/-- Weight refresh (R272 to R297). `pins`: the oldest step whose refresh is reading; `dropped`: shares a full staging ring has dropped a
lighter of, to be asked for once flips have freed space (R288); `toStage`: parts of lighters on their way to a quay under relief; `reported`:
what each layer's share on a quay was last reported flipped to (R294). -/
structure Refr where
  running : List RefrShare := []
  pins    : Option Nat := none
  resync  : List RefrShare := []
  sched   : Option Sched := none
  nextSched : Option Sched := none
  staged  : List Staged := []
  toStage : List (Nat × Nat × Nat) := []
  reported : Tbl (Nat × Nat) Nat := []
  ends    : List EndRec := []
  bad     : List (Nat × Nat × Nat × Nat) := []
  asked   : List (Nat × Nat × Nat) := []
  dropped : List (Nat × Nat × Nat) := []
  gapAt   : Tbl Nat Nat := []
  cur     : Nat := 0
  held    : Bool := false
  target  : Option Nat := none
  pass    : Option PassSt := none
  eligible : List Nat := []
  flipped : Tbl (Nat × Nat) Nat := []
  w       : Option Nat := none
  passVer : Nat := 0
  batchNone : Bool := true
  batchMixed : Bool := false
  deriving DecidableEq, Repr

/-- A hold prefetch order (R324): layers as lists of (region, quay, first page, count), CYCLIC. -/
structure HoldOrder where
  layers : List (List (Nat × Nat × Nat × Nat))
  cyclic : Bool
  deriving DecidableEq, Repr

/-! ## Locker (13) -/

/-- An outstanding locker request (R400, R401). -/
structure LockReq where
  tag   : Nat
  pos   : Nat
  wr    : Bool
  dev   : Nat
  addr  : Nat
  lines : List Line
  nread : Nat
  since : Nat
  tries : Nat
  what  : Nat
  deriving DecidableEq, Repr

/-- What the harbour knows of one locker slot (R403, R409). -/
structure Slot where
  gen  : Nat
  step : Nat
  deriving DecidableEq, Repr

inductive FlushPhase where
  /-- Waiting for the mooring tallies launched before W (R404). -/
  | waiting
  /-- The commit records of both slots are being read (R403, R409). -/
  | slots
  /-- The commit record is being zeroed (R407). -/
  | zeroing
  | writing
  | committing
  deriving DecidableEq, Repr

/-- A cold flush (R404 to R411): W, mooring point, slot, phase, completion address, commit generation, bytes written; `unit`
holds the lines of units 1 to 20, by offset in the slot; `man` says that a manifest asked for it, and `heads` holds the lines of the slots read
before the first flush, by address. -/
structure Flush where
  w      : Nat
  m      : Nat := 0
  slot   : Nat := 0
  phase  : FlushPhase := .waiting
  cpl    : Nat
  gen    : Nat := 0
  bytes  : Nat := 0
  parked : Bool := false
  mark   : Bool := false
  dcrc   : Nat := 0
  unit   : List (Nat × Line) := []
  man    : Bool := false
  heads  : Tbl Nat Line := []
  redo   : List Nat := []
  deriving DecidableEq, Repr

/-- A restore from the locker (R412): step, stage (0 commit records, 1 units 1 to 20, 2 quay areas, 3 applied), the slot found at
each device, the lines read. -/
structure Restore where
  m     : Nat
  stage : Nat := 0
  slots : Tbl Nat Nat := []
  lines : Tbl (Nat × Nat) Line := []
  deriving DecidableEq, Repr

/-- The locker as the harbour knows it: `known` once both commit records have been read; `slots` holds the committed ones; `relays` the
records other members sent of what they restored, by convoy, position and step, until this device has restored its own (R412); `heads`: lines of the
slots read for a confirm, `headFail`: they could not be read (R408, R409). -/
structure Locker where
  flush  : Option Flush := none
  reqs   : List LockReq := []
  nextTag : Nat := 0
  known  : Bool := false
  slots  : Tbl Nat Slot := []
  confirmed : Option Nat := none
  pins   : Option Nat := none
  restore : Option Restore := none
  relays : List (Nat × Nat × Nat × Line) := []
  heads  : Tbl Nat Line := []
  headFail : Bool := false
  deriving DecidableEq, Repr

/-- Salvage of the harbour's positions (R151, R158): convoy, position, state step. -/
structure SalvPos where
  convoy : Nat
  pos    : Nat
  started : Bool
  deriving DecidableEq, Repr

structure LockStep where
  stopped : Bool := false
  cum     : Nat := 0
  cums    : Tbl Nat Nat := []
  judged  : Nat := 0
  partialW : List Nat := []
  lateSince : Option Nat := none
  deriving DecidableEq, Repr

/-- Extra parity and stand-ins (R166, R179): the lines kept in ballast, by convoy, quay, stripe, role and line; `stripes`: the stripes whose
extra parity was given up for stand-ins; `send`: those for which this device as a data member sends the extra copy; `live`: the convoys and
quays whose extra parity was reported. -/
structure Xpar where
  building : Bool := false
  stripes  : List (Nat × Nat × Nat) := []
  lines    : Tbl (Nat × Nat × Nat × Nat × Nat) Line := []
  send     : List (Nat × Nat × Nat) := []
  live     : List (Nat × Nat) := []
  deriving DecidableEq, Repr

/-- A register answer (R456). -/
structure RegRsp where
  resp  : Nat
  rdata : Word
  deriving DecidableEq, Repr

/-- The state of one harbour and of the memory behind its channel ports. `cpWait`: compute-port requests presented and not
accepted, each with its operation code of R438. -/
structure State where
  fit    : Fit := {}
  hcfg   : Tbl Nat Word := []
  hLatch : Tbl Nat Word := []
  quays  : Tbl Nat Quay := []
  ports  : Tbl Nat PortSt := []
  tide   : Tide := {}
  man    : Man := {}
  boot   : Boot := {}
  ident  : Ident := {}
  sec    : Sec := {}
  pwr    : Pwr := {}
  sb     : Sb := {}
  grade  : Grade := {}
  job    : Job := {}
  steps  : Steps := {}
  opt    : Opt := {}
  num    : Num := {}
  coll   : CollSt := {}
  refr   : Refr := {}
  hold   : Option HoldOrder := none
  locker : Locker := {}
  crw    : Crw := {}
  salv   : List SalvPos := []
  xpar   : Xpar := {}
  lock   : LockStep := {}
  ev     : Ev := {}
  snap   : Snap := {}
  taps   : Tbl Nat Tap := []
  ring   : Tbl (Nat × Bool) RingEnd := []
  reliefs : List Relief := []
  restarts : Tbl (Nat × Nat) Nat := []
  cpWait : List (Nat × CpReq) := []
  cpOut  : List CpRsp := []
  regOut : Option RegRsp := none
  mem    : List Host.Cell := []
  poisoned : List Nat := []
  badLines : List Nat := []
  free   : Nat := 0
  pending : List Instr := []
  deriving DecidableEq, Repr

/-- The harbour right after reset (R394, R437): every quay disabled, no job, counters 0; the queue is empty. -/
def State.reset : State := {}

end Sys2Proof.Machine
end

