-- ==== Sys2Proof/Machine/Ops.lean ====
section
/-! DEFINITION. The named operations over the state: quays and port positions, parameters and configuration words, the
region and convoy tables, memory behind the channel ports, channel commands (R442 to R444) and counters (R378, R380). -/

namespace Sys2Proof.Machine

/-! ## Quays and port positions -/

/-- Physical quay `p`. -/
def State.quay (s : State) (p : Nat) : Quay := s.quays.get {} p

/-- Replace physical quay `p`. -/
def State.setQuay (s : State) (p : Nat) (q : Quay) : State := { s with quays := s.quays.set p q }

/-- Change physical quay `p`. -/
def State.modQuay (s : State) (p : Nat) (f : Quay → Quay) : State := s.setQuay p (f (s.quay p))

/-- Port position `l`, which has the number of the logical quay it serves (R434). -/
def State.port (s : State) (l : Nat) : PortSt := s.ports.get {} l

/-- Change port position `l`. -/
def State.modPort (s : State) (l : Nat) (f : PortSt → PortSt) : State := { s with ports := s.ports.set l (f (s.port l)) }

/-- The physical quay in service that holds logical index `l` (R17, R18). -/
def State.phys (s : State) (l : Nat) : Option Nat :=
  (s.quays.find? (fun e => e.2.inService && e.2.lq == some l)).map (·.1)

/-- The physical quay that holds logical index 0, or 0 while none does (R19). -/
def State.q0 (s : State) : Nat := (s.phys 0).getD 0

/-- The quay serving port position `l`. -/
def State.lquay (s : State) (l : Nat) : Quay := s.quay ((s.phys l).getD 99)

/-- The quay whose tables hold the regions of logical index `l`: the one in service, the failed one while its relief loads them or where it has
none, and before any is in service the quay of that number (R17, R162, R181). -/
def State.confQuay (s : State) (l : Nat) : Quay :=
  match s.phys l, s.reliefs.find? (fun r => r.lq == l) with
  | some p, _ => s.quay p
  | none, some r => r.old
  | none, none => ((s.quays.find? (fun e => e.2.was == some l)).map (·.2)).getD (s.quay l)

/-- The logical indices of the harbour, in service or not. -/
def State.allQuays (s : State) : List Nat := List.range s.fit.nActive

/-- The logical indices in service or under relief. -/
def State.standing (s : State) : List Nat := s.allQuays.filter (fun l => (s.phys l).isSome || s.reliefs.any (fun r => r.lq == l))

/-- Change the quay serving port position `l`. -/
def State.modLquay (s : State) (l : Nat) (f : Quay → Quay) : State :=
  match s.phys l with
  | none => s
  | some p => s.modQuay p f

/-- The logical index of physical quay `p`, 0xF when it has none (R360, R487). -/
def State.lqOf (s : State) (p : Nat) : Nat := ((s.quay p).lq).getD 15

/-- Logical quays in service, ascending. -/
def State.lquays (s : State) : List Nat := (List.range s.fit.nActive).filter (fun l => (s.phys l).isSome)

/-- Physical quays the integration has, ascending: 0 to N-1 and the relief quays from 16 (R17). -/
def State.physAll (s : State) : List Nat := List.range s.fit.nActive ++ (List.range s.fit.nRelief).map (· + 16)

/-- Physical quays in service. -/
def State.physIn (s : State) : List Nat := s.physAll.filter (fun p => (s.quay p).inService)

/-- Whether port position `l` exists and its quay is enabled. -/
def State.serving (s : State) (l : Nat) : Bool :=
  match s.phys l with
  | none => false
  | some p => (s.quay p).enabled

/-- Whether every quay in service is enabled, and at least one is (R476). -/
def State.allEnabled (s : State) : Bool := !s.physIn.isEmpty && s.physIn.all (fun p => (s.quay p).enabled)

/-- The base die of physical quay `p`. -/
def State.die (s : State) (p : Nat) : Nat := if p < 16 then s.fit.dieOf.getD p 0 else s.fit.reliefDie.getD (p - 16) 0

/-! ## Time -/

/-- The tide durations run on: the current tide, or the estimate while it has stalled (R36, R37). -/
def State.durTide (s : State) : Nat := if s.tide.stalled then s.tide.est else s.tide.now

/-- The duration clock: durations do not see forward jumps (R38, log 6). -/
def State.clock (s : State) : Nat := s.durTide - s.tide.skew

/-- Whether a duration begun at `since` on the duration clock has reached `t` tides. -/
def State.passed (s : State) (since t : Nat) : Bool := decide (since + t ≤ s.clock)

/-! ## Configuration words and parameters -/

/-- The reset value of a configuration word of the harbour common block (R483, R485). -/
def hwReset (off : Nat) : Word :=
  if off == 0xA0 then 1
  else if 0x4000 ≤ off && off < 0x6000 && 1 ≤ (off - 0x4000) % 512 / 4 && (off - 0x4000) % 512 / 4 ≤ 34 then 0xFFFFF
  else 0

/-- A configuration word of the harbour common block. -/
def State.hw (s : State) (off : Nat) : Nat := (s.hcfg.get (hwReset off) off).toNat

/-- Write a configuration word of the harbour common block. -/
def State.setHw (s : State) (off v : Nat) : State := { s with hcfg := s.hcfg.set off (BitVec.ofNat 32 v) }

/-- A word of the region table of a quay (R488). -/
def Quay.rw (q : Quay) (off : Nat) : Nat := (q.qcfg.get 0 off).toNat

/-- A region entry (R24, R488). -/
structure Region where
  idx    : Nat
  valid  : Bool
  kind   : Nat
  base   : Nat
  size   : Nat
  fmt    : Nat
  tag    : Nat
  convoy : Nat
  nw     : Bool
  rmt    : Bool
  ord    : Bool
  deriving DecidableEq, Repr

/-- Region entry `e` of a quay. -/
def Quay.region (q : Quay) (e : Nat) : Region :=
  let w0 := q.rw (0x1000 + 16 * e)
  let w1 := q.rw (0x1004 + 16 * e)
  let w2 := q.rw (0x1008 + 16 * e)
  { idx := e, valid := bitOf w0 31, kind := fld w0 30 28, base := fld w0 27 0, size := fld w1 27 0, fmt := fld w1 31 28,
    tag := fld w2 31 20, convoy := fld w2 19 16, nw := bitOf w2 15, rmt := bitOf w2 14, ord := bitOf w2 13 }

/-- The valid region entries of a quay, ascending. A word never written is 0, so only entries with a word 0 count. -/
def Quay.regions (q : Quay) : List Region :=
  ((List.range 256).filter (fun e => (q.qcfg.find (0x1000 + 16 * e)).isSome)).filterMap
    (fun e => let r := q.region e; if r.valid then some r else none)

/-- The region of a local address (R24). -/
def Quay.regionOf (q : Quay) (addr : Nat) : Option Region :=
  q.regions.find? (fun r => r.base * 4096 ≤ addr && addr < (r.base + r.size) * 4096)

/-- The region of an address at a port position. -/
def State.regionOf (s : State) (l addr : Nat) : Option Region := (s.lquay l).regionOf addr

/-- The region kind of an address: plain where no entry holds it (R24). -/
def State.kindOf (s : State) (l addr : Nat) : Nat := ((s.regionOf l addr).map (·.kind)).getD 0

/-- A convoy entry (R63, R485). -/
structure Convoy where
  idx   : Nat
  valid : Bool
  k     : Nat
  m     : Nat
  pos   : Nat
  xp    : Nat
  mem   : List Nat
  d     : List Nat
  par   : List Nat
  sh    : List Nat
  deriving DecidableEq, Repr

/-- Convoy entry `c`. -/
def State.convoy (s : State) (c : Nat) : Convoy :=
  let w := fun x => s.hw (0x4000 + 512 * c + 4 * x)
  let w0 := w 0
  { idx := c, valid := bitOf w0 31, k := fld w0 30 26, m := fld w0 25 23, pos := fld w0 22 17, xp := fld w0 16 13,
    mem := (List.range 34).map (fun i => fld (w (1 + i)) 19 0), d := (List.range 16).map (fun q => fld (w (35 + q)) 25 0),
    par := (List.range 16).map (fun q => fld (w (51 + q)) 27 0), sh := (List.range 16).map (fun q => fld (w (67 + q)) 27 0) }

/-- n = k + m. -/
def Convoy.n (c : Convoy) : Nat := c.k + c.m

/-- The device at position `x`. -/
def Convoy.dev (c : Convoy) (x : Nat) : Nat := c.mem.getD x 0xFFFFF

/-- CDIGEST (R63). -/
def Convoy.digest (c : Convoy) : Nat :=
  crc32c (([c.k, c.m] ++ (List.range c.n).map c.dev ++ c.d).flatMap (bytesOf 4))

/-- The valid convoy entries. -/
def State.convoys (s : State) : List Convoy :=
  ((List.range 16).filter (fun c => bitOf (s.hw (0x4000 + 512 * c)) 31)).map s.convoy

/-- Sum of SIZE of protected regions of convoy `c` on a quay (R64). -/
def Quay.protUnits (q : Quay) : Nat := (q.regions.filter (fun r => r.kind == 1)).foldl (fun a r => a + r.size) 0

/-- Data and parity units of a quay's convoys: parity units are M × ceil(D / K) each (R64). -/
def State.parityUnits (s : State) (l : Nat) : Nat :=
  s.convoys.foldl (fun a c => a + c.m * cdiv (c.d.getD l 0) (max c.k 1)) 0

/-- A parameter's value on a physical quay: the value set there, else the default (R390). `n` bounds how deep one value
may read another. -/
def State.paramAux (s : State) (p : Nat) : Nat → Param → Option Nat
  | 0, _ => none
  | n + 1, x =>
    match (s.quay p).params.find x with
    | some v => some v.val
    | none =>
      let l := s.lqOf p
      let g := fun y => (s.paramAux p n y).getD 0
      let u := (s.quay p).protUnits
      let ring := if x == .logSpecLimit
        then (g .logSize * 4096 - 4096 - 32 * u - 4 * cdiv (s.parityUnits l * 32) 8) / 2 ^ 20 else 0
      paramDefault l ring g x

/-- A parameter's value on physical quay `p`, none when it has none. -/
def State.param? (s : State) (p : Nat) (x : Param) : Option Nat := s.paramAux p 3 x

/-- A parameter on the quay serving port position `l`, 0 when it has no value. -/
def State.lpar (s : State) (l : Nat) (x : Param) : Nat := (s.param? ((s.phys l).getD 0) x).getD 0

/-- A parameter of harbour-level work: logical quay 0's value decides (R489). -/
def State.hpar (s : State) (x : Param) : Nat := (s.param? s.q0 x).getD 0

/-- The size of the log ring of a port position in bytes: the area less the control block, the unit index and the snapshot
map (R102). -/
def State.ringBytes (s : State) (l : Nat) : Nat :=
  s.lpar l .logSize * 4096 - 4096 - 32 * (s.lquay l).protUnits - 4 * cdiv (s.parityUnits l * 32) 8

/-! ## Memory behind the channel ports -/

/-- The cell key of a local address at a port position. -/
def memKey (l addr : Nat) : Nat := l * 2 ^ 40 + addr % 2 ^ 40

/-- The address of the line an address lies in. -/
def lineOf (addr : Nat) : Nat := addr - addr % 128

/-- `n` bytes from key `k` as a little-endian number; a byte not listed is 0 (log 1). -/
def Memory.read (m : List Host.Cell) (k n : Nat) : Nat :=
  (m.filter (fun c => k ≤ c.1 && c.1 < k + n)).foldl (fun a c => a + c.2.toNat <<< (8 * (c.1 - k))) 0

/-- The cells of `n` bytes `v` at key `k`: none for a byte that is 0. -/
def Memory.cells (k n v : Nat) : List Host.Cell :=
  (List.range n).filterMap (fun i =>
    let b := BitVec.ofNat 8 (v >>> (8 * i))
    if b = 0 then none else some (k + i, b))

/-- Write `n` bytes `v` at key `k`. -/
def Memory.write (m : List Host.Cell) (k n v : Nat) : List Host.Cell :=
  m.filter (fun c => c.1 < k) ++ Memory.cells k n v ++ m.filter (fun c => k + n ≤ c.1)

/-- The canonical form: addresses strictly rising, no cell equal to what an unlisted address reads as. -/
abbrev Memory.wf (m : List Host.Cell) : Prop := m.Pairwise (fun a b => a.1 < b.1) ∧ ∀ c ∈ m, c.2 ≠ 0

/-- `n` bytes at an address of a port position. -/
def State.readB (s : State) (l addr n : Nat) : Nat := Memory.read s.mem (memKey l addr) n

/-- A line. -/
def State.readLine (s : State) (l addr : Nat) : Line := BitVec.ofNat 1024 (s.readB l (lineOf addr) 128)

/-- Put bytes into memory; used by channel writes only. -/
def State.poke (s : State) (l addr n v : Nat) : State := { s with mem := Memory.write s.mem (memKey l addr) n v }

/-- Whether a line carries the poison mark. -/
def State.isPoisoned (s : State) (l addr : Nat) : Bool := s.poisoned.contains (memKey l (lineOf addr))

/-- Whether the controller cannot read the line. -/
def State.isBad (s : State) (l addr : Nat) : Bool := s.badLines.contains (memKey l (lineOf addr))

/-- Whether a line reads without poison or error. -/
def State.lineOk (s : State) (l addr : Nat) : Bool := !s.isPoisoned l addr && !s.isBad l addr

/-- Set or clear a mark. -/
def setMark (b : Bool) (k : Nat) (l : List Nat) : List Nat :=
  if b then (if l.contains k then l else k :: l) else l.filter (· ≠ k)

/-- Every byte enabled. -/
def fullMask : BitVec 128 := BitVec.allOnes 128

/-- The byte enables as bits of a line. -/
def expandMask (m : BitVec 128) : Line :=
  BitVec.ofNat 1024 ((List.range 128).foldl (fun a i => if m.getLsbD i then a + 255 <<< (8 * i) else a) 0)

/-- The enabled bytes of `d` over `old` (R29 stage 5). -/
def mergeLine (m : BitVec 128) (d old : Line) : Line :=
  if m = fullMask then d else (d &&& expandMask m) ||| (old &&& ~~~ expandMask m)

/-- What a write does to the memory (R443): the enabled bytes, and the poison mark. -/
def State.applyWrite (s : State) (l addr : Nat) (d : McData) : State :=
  let k := memKey l addr
  let s1 := s.poke l addr 128 (mergeLine d.mask d.data (s.readLine l addr)).toNat
  if d.poison then { s1 with poisoned := setMark true k s1.poisoned }
  else if d.mask = fullMask then
    { s1 with poisoned := setMark false k s1.poisoned, badLines := setMark false k s1.badLines }
  else s1

/-! ## Channel commands -/

/-- Whether a command to line `a` must wait for one of `es`: R444 allows no read and write, and no two writes, of one line
at a time. -/
def mcBlocked (es : List McCmd) (a : Nat) (wr : Bool) : Bool := es.any (fun e => e.addr == a && (wr || e.wr.isSome))

/-- The most commands a port position holds unanswered of one kind: 4,096 on each of 4 lanes (R442). -/
def mcLimit : Nat := 16384

/-- Give a tag to every waiting command that may be sent now (R444). `es`: the commands before. -/
def mcIssue (now tag : Nat) : List McCmd → List McCmd → List McCmd × Nat
  | _, [] => ([], tag)
  | es, e :: t =>
    if e.tag.isNone && !mcBlocked es e.addr e.wr.isSome &&
        decide ((es.filter (fun x => x.tag.isSome && x.wr.isSome == e.wr.isSome)).length < mcLimit) then
      let e' := { e with tag := some tag, since := now }
      let r := mcIssue now (tag + 1) (e' :: es) t
      (e' :: r.1, r.2)
    else
      let r := mcIssue now tag (e :: es) t
      (e :: r.1, r.2)

/-- Send what may be sent on the channel port of quay `q`. -/
def Quay.mcPump (now : Nat) (q : Quay) : Quay :=
  let r := mcIssue now q.mcTag [] q.mc
  { q with mc := r.1, mcTag := r.2 }

/-- Issue a write of a line: memory takes it at once (log 2), the acknowledgement comes with MC_WRITE_ACK. -/
def State.issueWrite (s : State) (l addr : Nat) (mask : BitVec 128) (data : Line) (poison : Bool) (use : McUse) : State :=
  match s.phys l with
  | none => s
  | some p =>
    let a := lineOf (addr % 2 ^ 40)
    let d : McData := { mask := mask, data := data, poison := poison, old := s.readLine l a, oldPoison := s.isPoisoned l a }
    (s.applyWrite l a d).modQuay p (fun q =>
      Quay.mcPump s.clock { q with mc := q.mc ++ [{ tag := none, addr := a, wr := some d, use := use, since := s.clock }] })

/-- Issue a read of a line. -/
def State.issueRead (s : State) (l addr : Nat) (use : McUse) : State :=
  s.modLquay l (fun q =>
    Quay.mcPump s.clock
      { q with mc := q.mc ++ [{ tag := none, addr := lineOf (addr % 2 ^ 40), wr := none, use := use, since := s.clock }] })

/-- The part of `n` bytes at `addr` that lies in the line at `a`: mask and data. -/
def linePart (addr n v a : Nat) : BitVec 128 × Line :=
  let lo := max addr a
  let hi := min (addr + n) (a + 128)
  let len := hi - lo
  (BitVec.ofNat 128 ((2 ^ len - 1) <<< (lo - a)),
    BitVec.ofNat 1024 (((v >>> (8 * (lo - addr))) % 2 ^ (8 * len)) <<< (8 * (lo - a))))

/-- The addresses of the lines that `n` bytes at `addr` touch. -/
def linesOf (addr n : Nat) : List Nat :=
  if n = 0 then [] else (List.range ((lineOf (addr + n - 1) - lineOf addr) / 128 + 1)).map (fun i => lineOf addr + 128 * i)

/-- Write `n` bytes of a structure, line by line. -/
def State.writeB (s : State) (l addr n v : Nat) (use : McUse) : State :=
  foldS (linesOf addr n) (fun a s => let pt := linePart addr n v a; s.issueWrite l a pt.1 pt.2 false use) s

/-- Write bytes of one of the quay's own structures (R445). -/
def State.ownWrite (s : State) (l addr n v : Nat) : State := s.writeB l addr n v .own

/-- Clear `n` bytes of one of the quay's own structures; lines that hold nothing but zeros need no write. -/
def State.zeroArea (s : State) (l addr n : Nat) : State :=
  let k := memKey l addr
  let used := ((s.mem.filter (fun c => decide (k ≤ c.1) && decide (c.1 < k + n))).map (fun c => lineOf (addr + (c.1 - k)))).eraseDups
  foldS used (fun a s => s.ownWrite l (max a addr) (min (a + 128) (addr + n) - max a addr) 0) s

/-! ## Counters (R378, R380) -/

/-- The attributes an event may carry (R379). -/
structure CntAttr where
  priv   : Option Bool := none
  master : Option Nat := none
  addr   : Option Nat := none
  kind   : Option Nat := none
  deriving DecidableEq, Repr

/-- Q_CNT_SELn. -/
def Cnt.selReg (c : Cnt) (n : Nat) : Nat := (c.sel.get 0xFF0 n).toNat

/-- Whether an event passes the filters of selectable counter `n` (R380). -/
def Cnt.passes (c : Cnt) (n ev : Nat) (a : CntAttr) : Bool :=
  let w := c.selReg n
  let prv := fld w 23 22
  bitOf w 3 && fld w 31 24 == ev && decide (ev < 0x32) &&
  (match prv, a.priv with
    | 0, _ => true
    | 1, some b => b
    | 2, some b => !b
    | _, _ => false) &&
  (!bitOf w 21 || (match a.master with
    | some m => m == fld w 20 13
    | none => false)) &&
  (!bitOf w 12 || (match a.addr with
    | some x => (x / 4096) &&& (c.amask.get 0 n).toNat == (c.amatch.get 0 n).toNat &&& (c.amask.get 0 n).toNat
    | none => false)) &&
  (fld w 11 4 == 0xFF || (match a.kind with
    | some k => bitOf (fld w 11 4) k
    | none => false))

/-- Add to one live counter; a wrap sets its bit (R378). -/
def Cnt.add (c : Cnt) (i k : Nat) : Cnt :=
  let v := c.live.get 0 i + k
  if v < 2 ^ 48 then { c with live := c.live.set i v }
  else { c with live := c.live.set i (v % 2 ^ 48), wrap := c.wrap ||| BitVec.ofNat 32 (2 ^ i) }

/-- Count `k` occurrences of an event: its fixed counter and every selectable one it passes. -/
def Cnt.tally (c : Cnt) (ev k : Nat) (a : CntAttr) : Cnt :=
  let c1 := if ev < 16 then c.add ev k else c
  foldS (List.range 16) (fun n d => if c.passes n ev a then d.add (16 + n) k else d) c1

/-- Whether a counter enabled in Q_CNT_IRQEN has wrapped, its bit set already or not: it reads lower than before (R373, R378). -/
def Cnt.wraps (c c' : Cnt) : Bool := (List.range 32).any (fun i => c.irqEn.getLsbD i && decide (c'.live.get 0 i < c.live.get 0 i))

/-- Count an event on physical quay `p`; a wrap enabled in Q_CNT_IRQEN sets CNT (R373). -/
def State.countP (s : State) (p ev k : Nat) (a : CntAttr := {}) : State :=
  if k = 0 then s else
  let c := (s.quay p).cnt
  let c' := c.tally ev k a
  let s1 := s.modQuay p (fun q => { q with cnt := c' })
  if !c.wraps c' then s1
  else { s1 with ev := { s1.ev with irqStat := s1.ev.irqStat ||| 8#4 } }

/-- Count an event on the quay serving port position `l`. -/
def State.countL (s : State) (l ev k : Nat) (a : CntAttr := {}) : State :=
  match s.phys l with
  | none => s
  | some p => s.countP p ev k a

/-- Count a harbour-level event on the quay holding logical index 0 (R379). -/
def State.countH (s : State) (ev : Nat) : State := s.countP s.q0 ev 1

/-- A free value: an opaque number, and the next state, whose counter has advanced (log 13). -/
def State.takeFree (s : State) : Nat × State := (Config.freeNat s.free, { s with free := s.free + 1 })

end Sys2Proof.Machine
end

