-- ==== Sys2Proof/Machine/Ring.lean ====
section
/-! DEFINITION. The deficit round robin of the ports (R239, R450), and the harbour ring: its messages, its link ends and their credits
(R22, R453, R454). -/

namespace Sys2Proof.Machine

/-! ## The deficit round robin -/

/-- The queue after `k` among `ks`, round and round; `old` is the round in which `k` stood, where it has left since. -/
def nextKey (ks old : List Nat) (k : Option Nat) : Option Nat :=
  match k with
  | none => ks.head?
  | some x =>
    let after := if ks.contains x then (ks.dropWhile (· != x)).drop 1 else ((old.dropWhile (· != x)).drop 1).filter ks.contains
    after.head?.orElse (fun _ => ks.head?)

/-- The next queue served by a deficit round robin over `ks`: the one whose turn it is while its first packet fits its deficit, else
the turn goes on, a queue with a packet gaining its quantum and one without losing its deficit. `size` is none for a queue without a
packet. -/
def Drr.pick (ks : List Nat) (size : Nat → Option Nat) (quantum : Nat → Nat) : Nat → Drr → Option Nat × Drr
  | 0, d => (none, d)
  | n + 1, d =>
    let go := fun (d : Drr) =>
      match nextKey ks d.keys d.turn with
      | none => (none, d)
      | some k => Drr.pick ks size quantum n
        { d with deficit := d.deficit.set k (if (size k).isSome then d.deficit.get 0 k + quantum k else 0), turn := some k }
    match d.turn.bind (fun k => (size k).map (fun b => (k, b))) with
    | some (k, b) => if ks.contains k && decide (b ≤ d.deficit.get 0 k) then (some k, { d with deficit := d.deficit.set k (d.deficit.get 0 k - b) }) else go d
    | none => go d

/-- The same, with the round kept for the next time. -/
def Drr.serve (ks : List Nat) (size : Nat → Option Nat) (quantum : Nat → Nat) (n : Nat) (d : Drr) : Option Nat × Drr :=
  let r := Drr.pick ks size quantum n d
  (r.1, { r.2 with keys := ks })

/-- A round of the collectives: those in slots in their order, and after them those that no slot holds any more and that have a packet, with
weight 1: DESIGN CHOICE, unsafe (log 124), R239 speaks of those in slots only. -/
def slotRound (slots : List (Nat × Nat)) (cs : List Nat) : List Nat :=
  let ks := slots.map (·.1)
  ks ++ sortBy (fun a b => decide (a ≤ b)) (cs.filter (fun c => !ks.contains c))

/-- The collectives in slots, in (LTIDE, CSEQ) order, with the weight of their group (R225, R239). -/
def State.slotWeights (s : State) : List (Nat × Nat) :=
  let cs := s.coll.run.filter (fun c => c.phase != .queued)
  (sortBy (fun a b => decide (a.l.ltide < b.l.ltide) || (a.l.ltide == b.l.ltide && decide (a.l.cseq ≤ b.l.cseq))) cs).map
    (fun c => (c.l.cseq, c.weight))

/-! ## The harbour ring (R22, R453, R454) -/

/-- Bytes after the header of a ring frame: those of a collective packet (R228), or one flit for another message (log 10). -/
def RingMsg.len : RingMsg → Nat
  | .coll n _ => n
  | .stage n => n
  | _ => 112

/-- The collective a ring frame belongs to. -/
def RingMsg.cseq : RingMsg → Nat
  | .coll _ pkt => byt pkt 11 8
  | _ => 0

/-- Distance on the ring eastwards from one physical quay to another. -/
def State.ringDist (s : State) (a b : Nat) : Nat :=
  let i := s.physAll.idxOf a
  let j := s.physAll.idxOf b
  (j + s.physAll.length - i) % max s.physAll.length 1

/-- Flits of a ring frame, its header included. -/
def RingFrame.flits (f : RingFrame) : Nat := cdiv (16 + f.len) 128

/-- The frame a link end starts next: the first of the first class that has one and a credit for it, the collective class by the
round robin of R239 (R22, R454). -/
def ringPick (slots : List (Nat × Nat)) (e : RingEnd) : Option RingFrame × Drr :=
  let able := fun (f : RingFrame) => decide (1 ≤ e.crd.get 16 f.cls)
  let heads := [1, 2, 3, 4, 5].filterMap (fun c => (e.txq.find? (fun f => f.cls == c)).filter able)
  match heads.head? with
  | some f => (some f, e.slots)
  | none =>
    let six := e.txq.filter (fun f => f.cls == 6)
    let all := slotRound slots ((six.map (fun f => f.msg.cseq)).eraseDups)
    let head := fun c => six.find? (fun f => f.msg.cseq == c)
    let w := fun c => 256 * max (((slots.find? (fun x => x.1 == c)).map (·.2)).getD 1) 1
    let r := Drr.serve all (fun c => ((head c).filter able).map (·.len)) w (26 * (all.length + 1)) e.slots
    (r.1.bind head, r.2)

/-- Send on the frame a link end has started, flit by flit as credits allow; no other starts before its last (R453). A frame may hold more
flits than a receiver grants at first, so it cannot wait for the credits of all: DEDUCED (log 100). -/
def ringFlush (e : RingEnd) : RingEnd :=
  match e.cur with
  | none => e
  | some f =>
    let n := min e.left (e.crd.get 16 f.cls)
    let e1 := { e with left := e.left - n, crd := e.crd.set f.cls (e.crd.get 16 f.cls - n) }
    if e1.left == 0 then { e1 with cur := none, sent := f :: e.sent } else e1

/-- Send what a link end's credits allow; each receiver grants 16 flits a class at first (R453). At most `n` frames are started. -/
def ringDrain (slots : List (Nat × Nat)) : Nat → RingEnd → RingEnd
  | 0, e => ringFlush e
  | n + 1, e0 =>
    let e := ringFlush e0
    if e.cur.isSome then e else
    let p := ringPick slots e
    match p.1 with
    | none => { e with slots := p.2 }
    | some f => ringDrain slots n { e with slots := p.2, txq := removeFirst (· == f) e.txq, cur := some f, left := f.flits }

/-- Put a frame on a link end. -/
def State.ringPut (s : State) (p : Nat) (east : Bool) (f : RingFrame) : State :=
  let e := s.ring.get {} (p, east)
  { s with ring := s.ring.set (p, east) (ringDrain s.slotWeights (e.txq.length + 1) { e with txq := e.txq ++ [f] }) }

/-- Send a message from one physical quay to another, the shorter way, and eastwards where both are as long (DESIGN CHOICE, unsafe, log 96);
between a quay and itself nothing goes. -/
def State.ringSend (s : State) (p dst cls : Nat) (m : RingMsg) : State :=
  let d := s.ringDist p dst
  let n := s.physAll.length
  let east := decide (2 * d ≤ n)
  if p == dst then s else
  s.ringPut p east { dst := dst, src := p, cls := cls, hops := if east then d else n - d, len := m.len, msg := m }

/-- Send a message from a quay to every quay: both ways, with HOPS 10 (R454). -/
def State.ringAll (s : State) (p cls : Nat) (m : RingMsg) : State :=
  let f : RingFrame := { dst := 0x1F, src := p, cls := cls, hops := 10, len := m.len, msg := m }
  (s.ringPut p true f).ringPut p false f

/-- The same from the quay that serves a logical index. -/
def State.ringCast (s : State) (l cls : Nat) (m : RingMsg) : State :=
  match s.phys l with
  | some p => s.ringAll p cls m
  | none => s

/-- Send a message from the quay of one logical index to that of another. -/
def State.ringTo (s : State) (l dst cls : Nat) (m : RingMsg) : State :=
  match s.phys l, s.phys dst with
  | some p, some d => s.ringSend p d cls m
  | _, _ => s

end Sys2Proof.Machine
end

