-- ==== Sys2Proof/Machine/Flags.lean ====
section
/-! DEFINITION. Status, events, alarms and interrupts: event records and their paths (R360 to R377), the event and
fault-signature rings (R354 to R356, R365, R371), H_ALARM_CAUSE and H_IRQ_STAT. -/

namespace Sys2Proof.Machine

/-- The event codes (R363, R420). -/
inductive Evt where
  | tideStall | tideBack | tideFwd | tideLost | skewDrop | formatError
  | configError | reservedArea | regionKind | ringUnavailable | charterPortUnavailable | role
  | configWriteIgnored | convoyMismatch | convoyConfig | lighterNoAck | lighterSeq | sealLate
  | stepOrder | abortLate | cursorMismatch | logExhausted | stepMoored | stepAborted
  | deliveryCheck | taintReceived | taintLate | recordMismatch | restoreRefused | verdictApplied
  | verdictGap | fencedSelf | salvageStart | salvageRestart | salvageDone | convoyLost
  | quayFailed | quayRelieved | quayLostNoRelief | memberReplaced | jobReady | jobStartFailed
  | jobTorn | gradeChange | xparityLive | optRole | optParam | optShape
  | optStep | optNodesc | optRange | optPartial | optNfState | shadowMismatch
  | collAborted | orderFault | collRole | collTally | groupPoolFull | rmtSeq
  | noVersion | decantNoscale | berthWarn | berthCrit | berthPtr | tileEvict
  | tileCheck | katFail | poisonConsumed | lockDiverge | lockSuspended | lockPeerLate
  | dredgeUnlocalised | faultSignature | stormSummary | stormMixed | evtGap | recoveryRestart
  | recoveryLimit | evtPathFail | evtPathRestored | secState | secTamper | secPresenceFault
  | secOpen | regRefused | tapRefused | crwDone | crwFailed | pwrState
  | pwrRefused
  deriving DecidableEq, Repr

/-- CODE of an event (R363, R420). -/
def Evt.code : Evt → Nat
  | .tideStall => 0x0101
  | .tideBack => 0x0102
  | .tideFwd => 0x0103
  | .tideLost => 0x0104
  | .skewDrop => 0x0105
  | .formatError => 0x0201
  | .configError => 0x0202
  | .reservedArea => 0x0203
  | .regionKind => 0x0204
  | .ringUnavailable => 0x0205
  | .charterPortUnavailable => 0x0206
  | .role => 0x0207
  | .configWriteIgnored => 0x0208
  | .convoyMismatch => 0x0301
  | .convoyConfig => 0x0302
  | .lighterNoAck => 0x0303
  | .lighterSeq => 0x0304
  | .sealLate => 0x0305
  | .stepOrder => 0x0401
  | .abortLate => 0x0402
  | .cursorMismatch => 0x0403
  | .logExhausted => 0x0404
  | .stepMoored => 0x0405
  | .stepAborted => 0x0406
  | .deliveryCheck => 0x0407
  | .taintReceived => 0x0408
  | .taintLate => 0x0409
  | .recordMismatch => 0x040A
  | .restoreRefused => 0x040B
  | .verdictApplied => 0x0501
  | .verdictGap => 0x0502
  | .fencedSelf => 0x0503
  | .salvageStart => 0x0504
  | .salvageRestart => 0x0505
  | .salvageDone => 0x0506
  | .convoyLost => 0x0507
  | .quayFailed => 0x0508
  | .quayRelieved => 0x0509
  | .quayLostNoRelief => 0x050A
  | .memberReplaced => 0x050B
  | .jobReady => 0x050C
  | .jobStartFailed => 0x050D
  | .jobTorn => 0x050E
  | .gradeChange => 0x050F
  | .xparityLive => 0x0510
  | .optRole => 0x0601
  | .optParam => 0x0602
  | .optShape => 0x0603
  | .optStep => 0x0604
  | .optNodesc => 0x0605
  | .optRange => 0x0606
  | .optPartial => 0x0607
  | .optNfState => 0x0608
  | .shadowMismatch => 0x0609
  | .collAborted => 0x0701
  | .orderFault => 0x0702
  | .collRole => 0x0703
  | .collTally => 0x0704
  | .groupPoolFull => 0x0705
  | .rmtSeq => 0x0801
  | .noVersion => 0x0901
  | .decantNoscale => 0x0902
  | .berthWarn => 0x0A01
  | .berthCrit => 0x0A02
  | .berthPtr => 0x0A03
  | .tileEvict => 0x0B01
  | .tileCheck => 0x0B02
  | .katFail => 0x0B03
  | .poisonConsumed => 0x0B04
  | .lockDiverge => 0x0B05
  | .lockSuspended => 0x0B06
  | .lockPeerLate => 0x0B07
  | .dredgeUnlocalised => 0x0B08
  | .faultSignature => 0x0B09
  | .stormSummary => 0x0C01
  | .stormMixed => 0x0C02
  | .evtGap => 0x0C03
  | .recoveryRestart => 0x0C04
  | .recoveryLimit => 0x0C05
  | .evtPathFail => 0x0C06
  | .evtPathRestored => 0x0C07
  | .secState => 0x0D01
  | .secTamper => 0x0D02
  | .secPresenceFault => 0x0D03
  | .secOpen => 0x0D04
  | .regRefused => 0x0D05
  | .tapRefused => 0x0D06
  | .crwDone => 0x0D07
  | .crwFailed => 0x0D08
  | .pwrState => 0x0D09
  | .pwrRefused => 0x0D0A

/-- SEV of an event (R363, R420): 0 TRACE, 1 NOTICE, 2 ERROR, 3 ALARM. Where the table names a condition, the lower one
stands here and the rule that raises the event gives the other. -/
def Evt.sev : Evt → Nat
  | .tideStall => 2
  | .tideBack => 2
  | .tideFwd => 2
  | .tideLost => 3
  | .skewDrop => 1
  | .formatError => 2
  | .configError => 2
  | .reservedArea => 2
  | .regionKind => 2
  | .ringUnavailable => 3
  | .charterPortUnavailable => 2
  | .role => 2
  | .configWriteIgnored => 1
  | .convoyMismatch => 2
  | .convoyConfig => 3
  | .lighterNoAck => 2
  | .lighterSeq => 2
  | .sealLate => 2
  | .stepOrder => 2
  | .abortLate => 2
  | .cursorMismatch => 2
  | .logExhausted => 3
  | .stepMoored => 0
  | .stepAborted => 1
  | .deliveryCheck => 2
  | .taintReceived => 1
  | .taintLate => 3
  | .recordMismatch => 3
  | .restoreRefused => 2
  | .verdictApplied => 1
  | .verdictGap => 2
  | .fencedSelf => 3
  | .salvageStart => 1
  | .salvageRestart => 2
  | .salvageDone => 1
  | .convoyLost => 3
  | .quayFailed => 2
  | .quayRelieved => 1
  | .quayLostNoRelief => 3
  | .memberReplaced => 2
  | .jobReady => 0
  | .jobStartFailed => 2
  | .jobTorn => 0
  | .gradeChange => 1
  | .xparityLive => 1
  | .optRole => 2
  | .optParam => 2
  | .optShape => 2
  | .optStep => 2
  | .optNodesc => 2
  | .optRange => 2
  | .optPartial => 2
  | .optNfState => 1
  | .shadowMismatch => 2
  | .collAborted => 1
  | .orderFault => 2
  | .collRole => 2
  | .collTally => 2
  | .groupPoolFull => 2
  | .rmtSeq => 2
  | .noVersion => 2
  | .decantNoscale => 2
  | .berthWarn => 1
  | .berthCrit => 2
  | .berthPtr => 2
  | .tileEvict => 1
  | .tileCheck => 2
  | .katFail => 2
  | .poisonConsumed => 2
  | .lockDiverge => 2
  | .lockSuspended => 1
  | .lockPeerLate => 1
  | .dredgeUnlocalised => 3
  | .faultSignature => 2
  | .stormSummary => 2
  | .stormMixed => 2
  | .evtGap => 2
  | .recoveryRestart => 1
  | .recoveryLimit => 3
  | .evtPathFail => 3
  | .evtPathRestored => 1
  | .secState => 1
  | .secTamper => 3
  | .secPresenceFault => 3
  | .secOpen => 3
  | .regRefused => 1
  | .tapRefused => 1
  | .crwDone => 1
  | .crwFailed => 2
  | .pwrState => 0
  | .pwrRefused => 2

/-! ## Record layouts -/

/-- Pack an event's values into ARG0 and ARG1 (R361): (width, value) in the order named; a value of at most 32 bits starts
at the next multiple of 32, a wider one at the next multiple of 64. -/
def packArgsAt : Nat → List (Nat × Nat) → Nat
  | _, [] => 0
  | pos, (w, v) :: t =>
    let a := if w ≤ 32 then cdiv pos 32 * 32 else cdiv pos 64 * 64
    (v % 2 ^ w) <<< a + packArgsAt (a + w) t

/-- ARG0 and ARG1 of a list of values. -/
def packArgs (l : List (Nat × Nat)) : Nat × Nat :=
  let v := packArgsAt 0 l
  (v % 2 ^ 64, (v >>> 64) % 2 ^ 64)

/-- A 32-bit count, saturating (R361). -/
def sat32 (n : Nat) : Nat := min n 0xFFFFFFFF

/-- The 64 B of an event record with its SEQ (R360). -/
def EvRec.bytes (r : EvRec) (seq : Nat) : Nat :=
  withCrc 64 (pack [(16, r.code), (2, r.sev), (1, b2n r.summary), (1, b2n r.nested), (1, b2n r.sampled), (3, 0),
    (8, r.pquay), (4, r.lquay), (4, 0), (2, r.depth), (6, 0), (16, r.job), (32, r.epoch), (48, r.step), (16, 0),
    (32, r.count), (64, r.tide), (64, r.ltide), (64, r.arg0), (64, r.arg1), (32, seq)])

/-! ## Alarm causes -/

/-- The H_ALARM_CAUSE bit of an ALARM event (R370, R418). -/
def Evt.alarmBit : Evt → Option Nat
  | .tideLost => some 0
  | .ringUnavailable => some 1
  | .convoyConfig => some 2
  | .logExhausted => some 3
  | .taintLate => some 4
  | .recordMismatch => some 5
  | .fencedSelf => some 6
  | .convoyLost => some 7
  | .quayLostNoRelief => some 8
  | .gradeChange => some 9
  | .dredgeUnlocalised => some 10
  | .recoveryLimit => some 11
  | .evtPathFail => some 12
  | .secTamper => some 13
  | .secPresenceFault => some 14
  | .secOpen => some 15
  | _ => none

/-- The live conditions of H_ALARM_CAUSE (R370, R418): bits a write of 1 does not clear. -/
def State.alarmLive (s : State) : Word :=
  BitVec.ofNat 32 (pack [(1, b2n s.tide.lost), (1, b2n (s.man.host.unavail || s.man.verdict.unavail)), (4, 0),
    (1, b2n s.job.quiescent.isSome), (1, b2n (!s.job.convoyLost.isEmpty)), (1, 0), (1, b2n (s.grade.eff == 7)), (2, 0),
    (1, b2n (s.ev.evFail || s.ev.fsFail.isSome)), (1, b2n s.sec.tamper), (1, 0), (1, b2n (s.sec.state == .opened))])

/-- Set an alarm cause bit. -/
def State.setAlarm (s : State) (b : Nat) : State :=
  { s with ev := { s.ev with alarm := s.ev.alarm ||| BitVec.ofNat 32 (2 ^ b) } }

/-- Set a bit of H_IRQ_STAT: 3 CNT, 2 INTEG, 1 EVT. -/
def State.setIrq (s : State) (b : Nat) : State :=
  { s with ev := { s.ev with irqStat := s.ev.irqStat ||| BitVec.ofNat 4 (2 ^ b) } }

/-- H_IRQ_STAT with ERRQ: any quay's error queue holds an entry (R373). -/
def State.irqBits (s : State) : BitVec 4 :=
  if s.quays.any (fun e => !e.2.ev.errq.isEmpty) then s.ev.irqStat ||| 1#4 else s.ev.irqStat

/-- The ALARM pin (R372). -/
def State.alarmPin (s : State) : Bool := decide (s.ev.alarm ≠ 0)

/-- The IRQ pins (R373). -/
def State.irqPins (s : State) : BitVec 4 := s.irqBits &&& s.ev.irqMask

/-! ## The error queue (R367) -/

/-- The code a record stands for: its own, or the one it summarises. -/
def EvRec.source (r : EvRec) : Nat :=
  if r.code == Evt.stormMixed.code then r.arg1 % 65536 else if r.summary then r.arg0 % 65536 else r.code

/-- Whether it stands for events of one code. -/
def EvRec.single (r : EvRec) : Bool := r.code != Evt.stormMixed.code

/-- The codes of a list with those of another added. -/
def addCodes (a b : List Nat) : List Nat := (b.filter (fun c => !a.contains c)) ++ a

/-- `a` with one more event `b` of the same source merged in (R368). -/
def EvRec.merge (a b : EvRec) : EvRec :=
  { a with code := Evt.stormSummary.code, summary := true, count := sat32 (a.count + b.count), ltide := b.ltide,
           arg0 := a.source, arg1 := if b.summary then b.arg1 else b.arg0 }

/-- A mixed record `a` with `b` merged in; `codes` are the distinct codes merged (R368). -/
def EvRec.mix (a b : EvRec) (codes : List Nat) : EvRec :=
  { a with code := Evt.stormMixed.code, sev := max a.sev b.sev, summary := true, count := sat32 (a.count + b.count),
           ltide := b.ltide, arg0 := codes.length, arg1 := b.source }

/-- Enter a record, which stands for events of the given codes, in an error queue of 64 entries: single entries below 60, then merging. -/
def QEv.push (q : QEv) (r : EvRec) (codes : List Nat) : QEv :=
  if q.errq.length < 60 then { q with errq := q.errq ++ [r] }
  else
    let i := (List.range q.errq.length).find? (fun i => 60 ≤ i && i ≤ 62 &&
      (match q.errq[i]? with
        | some e => e.source == r.source && e.pquay == r.pquay && e.single && r.single
        | none => false))
    match i with
    | some i =>
      { q with errqOvf := true, errq := mapIf (fun (x : EvRec × Nat) => x.2 == i) (fun x => (x.1.merge r, x.2)) q.errq.zipIdx
          |>.map (·.1) }
    | none =>
      if q.errq.length < 63 then { q with errqOvf := true, errq := q.errq ++ [r] }
      else if q.errq.length < 64 then
        { q with errqOvf := true, errqMixed := codes, errq := q.errq ++ [EvRec.mix { r with count := 0 } r codes] }
      else
        let all := addCodes q.errqMixed codes
        { q with errqOvf := true, errqMixed := all, errq := q.errq.take 63 ++ (q.errq.drop 63).map (fun e => e.mix r all) }

/-- Keep a record in the local buffer of 32. A full buffer merges it by the form of R368, into the record of its source, or into the last
one as a mixed record (R366, R494). -/
def QEv.keep (q : QEv) (r : EvRec) (codes : List Nat) : QEv :=
  if q.buf.length < 32 then { q with buf := q.buf ++ [r] }
  else
    match (List.range q.buf.length).find? (fun i => match q.buf[i]? with
        | some e => e.source == r.source && e.single && r.single
        | none => false) with
    | some i => { q with buf := (mapIf (fun (x : EvRec × Nat) => x.2 == i) (fun x => (x.1.merge r, x.2)) q.buf.zipIdx).map (·.1) }
    | none =>
      let all := addCodes (if q.bufMixed.isEmpty then (q.buf.drop 31).map (·.source) else q.bufMixed) codes
      { q with bufMixed := all, buf := q.buf.take 31 ++ (q.buf.drop 31).map (fun e => e.mix r all) }

/-! ## The event ring (R365, R369) -/

/-- Slots of the event ring. -/
def State.evN (s : State) : Nat := 2 ^ s.hpar .evtLog2

/-- Fill of the event ring from CONS last read. -/
def State.evFill (s : State) : Nat := s.ev.prod - s.ev.cons

/-- Test the EVT interrupt: enough unread records, or one that has waited EVT_IRQ_T on the duration clock (R36, R373). -/
def State.evIrqTest (s : State) : State :=
  if s.ev.unread.length ≥ max (s.hpar .evtIrqCnt) 1 ||
      s.ev.unread.any (fun e => s.passed e.2 (s.hpar .evtIrqT)) then s.setIrq 1 else s

/-- Write a record and then PROD. -/
def State.evWrite (s : State) (r : EvRec) : State :=
  let i := s.ev.prod
  let base := s.hpar .evtBase
  let s1 := s.writeB 0 (base + 256 + (i % s.evN) * 64) 64 (r.bytes i) (.evRec i)
  let s2 := s1.writeB 0 base 4 ((i + 1) % 2 ^ 32) (.evRing i)
  State.evIrqTest { s2 with ev := { s2.ev with prod := i + 1, unread := s2.ev.unread ++ [(i, s.clock)] } }

/-- One record of severity `sev`, standing for `n` events, that does not reach the ring: the record is counted for EVT_GAP, and
the events of a TRACE or NOTICE, which have no other path, in EVT_LOST (R369, R371). -/
def State.evLose (s : State) (sev n : Nat) (gap : Bool) : State :=
  let s1 := if gap then { s with ev := { s.ev with gap := s.ev.gap.set sev (s.ev.gap.get 0 sev + 1) } } else s
  if sev < 2 then s1.countP s.q0 0x2C n else s1

/-- A record at logical quay 0 that is not written. -/
def State.evMiss (s : State) (r : EvRec) (gap : Bool) : State := s.evLose r.sev r.count gap

/-- Events of a source that are not written since its previous record, for its next one to carry: `phase` of them since sampling last wrote
one. -/
def State.sampleLeft (s : State) (r : EvRec) (phase : Nat) : State :=
  let k := (r.pquay, r.code)
  let c := s.ev.samples.get {} k
  { s with ev := { s.ev with samples := s.ev.samples.set k { phase := phase, left := c.left + 1, tide := if c.left = 0 then r.tide else c.tide } } }

/-- Write a record with the events of its source not written since the previous one (R360, R369). -/
def State.evCarry (s : State) (r : EvRec) (sampled : Bool) : State :=
  let k := (r.pquay, r.code)
  let c := s.ev.samples.get {} k
  ({ s with ev := { s.ev with samples := s.ev.samples.del k } } : State).evWrite
    { r with sampled := sampled || decide (c.left ≠ 0), count := sat32 (r.count + c.left), tide := if c.left = 0 then r.tide else c.tide }

/-- Once the ring is full no record carries the events left out before: they are lost (R369; DEDUCED, log 115). -/
def State.leftLost (s : State) : State :=
  let n := s.ev.samples.foldl (fun a e => a + e.2.left) 0
  let s1 : State := { s with ev := { s.ev with samples := [] } }
  if n == 0 then s1 else s1.countP s.q0 0x2C n

/-- A record at logical quay 0: written, sampled or not written, by the fill (R369, R371). Events of a source that were not written
are carried by its next written record, whatever the fill is then, unless the ring has been full in between (DEDUCED, log 115). -/
def State.evRing (s : State) (r : EvRec) : State :=
  let n := s.evN
  let f := s.evFill
  let phase := (s.ev.samples.get {} (r.pquay, r.code)).phase
  let sampled := !r.summary && ((r.sev == 0 && decide (n ≤ 2 * f)) || (r.sev == 1 && decide (3 * n ≤ 4 * f)))
  if s.ev.evFail then s.evMiss r true
  else if n ≤ f || s.ev.full then
    let s1 := (if s.ev.full then s else s.leftLost).evMiss r true
    { s1 with ev := { s1.ev with full := true } }
  else if r.sev < 2 && !r.summary && (n ≤ f + 64 || (r.sev == 0 && decide (3 * n ≤ 4 * f))) then s.sampleLeft r phase
  else if sampled then
    if phase + 1 < s.hpar .evtSample then (s.sampleLeft r (phase + 1)).countP s.q0 0x2B 1 else s.evCarry r true
  else if r.summary then s.evWrite r
  else s.evCarry r false

/-- A record on its way from the quay that detected it to logical quay 0: on the control class of the ring where they differ (R22, R366). -/
def State.evSend (s : State) (r : EvRec) : State := (s.ringSend r.pquay s.q0 4 (.event r.code)).evRing r

/-- Suppress a record into the summary cell of its source, or into the mixed cell of its severity (R368). -/
def QEv.suppress (q : QEv) (r : EvRec) : QEv :=
  if q.cells.any (fun c => c.source == r.source) then
    { q with cells := mapIf (fun c => c.source == r.source) (fun c => c.merge r) q.cells }
  else if q.cells.length < 64 then { q with cells := q.cells ++ [EvRec.merge { r with count := 0 } r] }
  else
    match q.mixed.find? (fun e => e.1 == r.sev) with
    | none => { q with mixed := q.mixed ++ [(r.sev, EvRec.mix { r with count := 0 } r [r.source], [r.source])] }
    | some e =>
      let codes := if e.2.2.contains r.source then e.2.2 else r.source :: e.2.2
      { q with mixed := mapIf (fun x => x.1 == r.sev) (fun x => (x.1, x.2.1.mix r codes, codes)) q.mixed }

/-- Whether logical quay 0 takes records: its ring has been reached (R494), it is not in Hold, where no command leaves the channel port (R425),
and not under relief; a ring whose channels have left service takes none and is out of reach (R371). -/
def State.evOpen (s : State) : Bool := s.ev.reach && s.pwr.state != .hold && ((s.phys 0).isSome || s.ev.evFail)

/-- A record, which stands for events of the given codes, enters the paths of its severity (R362): the error queue of quay `home` and the event
ring, or the local buffer of its quay while logical quay 0 takes none (R366, R494). -/
def State.evRoute (s : State) (home : Nat) (r : EvRec) (codes : List Nat) : State :=
  let s1 := if 2 ≤ r.sev then s.modQuay home (fun q => { q with ev := q.ev.push r codes }) else s
  if s1.evOpen then s1.evSend r
  else s1.modQuay r.pquay (fun q => { q with ev := q.ev.keep r codes })

/-- The storm window a quay's tide lies in: 2^EVT_STORM_P tides, aligned with phase 0 (R368). -/
def State.stormWin (s : State) (p : Nat) : Nat := s.tide.now / 2 ^ (s.param? p .evtStormP).getD 20

/-- Whether a code announces fault signatures, whose records enter the queue of logical quay 0 (R364, R367). -/
def sigCode (c : Nat) : Bool :=
  ([.poisonConsumed, .tileCheck, .katFail, .shadowMismatch, .berthPtr, .dredgeUnlocalised, .lockDiverge, .quayFailed, .faultSignature] : List Evt).any
    (fun e => e.code == c)

/-- The quay whose error queue a summary of these codes enters. -/
def State.stormHome (s : State) (p : Nat) (codes : List Nat) : Nat := if codes.all sigCode then s.q0 else p

/-- STORM_WINDOW_END (R368): every cell becomes one record, and the window's counts start again. Nothing happens before the
window in which the quay's counts run has ended. -/
def State.stormEnd (s : State) (p : Nat) : State :=
  let q := s.quay p
  if s.stormWin p == q.ev.win then s else
  let s1 := s.modQuay p (fun q => { q with ev := { q.ev with cells := [], mixed := [], seen := [], win := s.stormWin p } })
  foldS (q.ev.cells.map (fun c => (c, [c.source])) ++ q.ev.mixed.map (fun m => (m.2.1, m.2.2)))
    (fun r s => s.evRoute (s.stormHome p r.2) r.1 r.2) s1

/-! ## Raising events -/

/-- The step a record names: the current step, or 0 with no job (R360, R479). -/
def State.curStep (s : State) : Nat := if s.job.phase = .none then 0 else s.steps.last

/-- The recovery depth of a quay as an object itself: 1 while its relief is under way (R375, R376). -/
def State.quayDepth (s : State) (p : Nat) : Nat := b2n (s.reliefs.any (fun r => r.p == p && r.st != .inService))

/-- Raise an event detected by physical quay `p`, its ERROR and ALARM records entering the queue of quay `home`: alarm
bit, storm limit, paths (R362, R367, R368, R370). A window that has ended is closed first. `nest`: procedures of R375 under way on the object
of the event, beside the quay's own relief (R376). -/
def State.evRaise (s0 : State) (p home : Nat) (e : Evt) (sev a0 a1 : Nat) (nest : Nat := 0) : State :=
  let s := s0.stormEnd p
  let depth := s.quayDepth p + nest
  let r : EvRec := { code := e.code, sev := sev, pquay := p, lquay := s.lqOf p, nested := decide (depth ≠ 0),
                     depth := min depth 3, job := s.job.tag, epoch := s.job.epoch, step := s.curStep, tide := s.tide.now,
                     ltide := s.tide.now, arg0 := a0, arg1 := a1 }
  let s1 := s.countP p 0x0E 1
  let s2 := if sev == 3 then whenSome e.alarmBit (fun b s => s.setAlarm b) s1 else s1
  let n := (s2.quay p).ev.seen.get 0 e.code
  let s3 := s2.modQuay p (fun q => { q with ev := { q.ev with seen := q.ev.seen.set e.code (n + 1) } })
  if n < max ((s.param? p .evtBurst).getD 8) 1 then s3.evRoute home r [r.code]
  else (s3.modQuay p (fun q => { q with ev := q.ev.suppress r })).countP p 0x2A 1

/-- An event of a quay, with the values its rule names. -/
def State.evQ (s : State) (p : Nat) (e : Evt) (args : List (Nat × Nat) := []) : State :=
  s.evRaise p p e e.sev (packArgs args).1 (packArgs args).2

/-- An event of the quay serving port position `l`. -/
def State.evL (s : State) (l : Nat) (e : Evt) (args : List (Nat × Nat) := []) : State :=
  match s.phys l with
  | none => s
  | some p => s.evQ p e args

/-- A harbour-level event, of the quay holding logical index 0 (R367). -/
def State.evH (s : State) (e : Evt) (args : List (Nat × Nat) := []) : State := s.evQ s.q0 e args

/-- A fault strikes a procedure of R375 that has restarted `n` times on an object: it restarts and is counted, or, with the flag set,
escalates (R376, R377). `proc` is its row in the table of R375, the first being 0. -/
def State.restart (s : State) (p proc obj n : Nat) : State × Bool :=
  let a := packArgs [(32, proc), (32, obj)]
  if s.hpar .recoveryLimit ≤ n then (s.evRaise p p .recoveryLimit 3 a.1 a.2 1, true)
  else ((s.evRaise p p .recoveryRestart 1 a.1 a.2 1).countP p 0x2D 1, false)

/-! ## Fault signatures (R354 to R356) -/

/-- What a fault signature holds beside what the state gives; `depth` is that of the event that announces it (R376). -/
structure SigArg where
  cls      : Nat
  unit     : Nat
  addr     : Nat := 0
  expected : Nat := 0
  observed : Nat := 0
  detail   : Nat := 0
  step     : Option Nat := none
  named    : Option Nat := none
  depth    : Nat := 0
  deriving DecidableEq, Repr

/-- The event that announces a class (R364). -/
def sigEvent (cls : Nat) : Evt :=
  match cls with
  | 0x08 => .poisonConsumed
  | 0x09 => .tileCheck
  | 0x0A => .katFail
  | 0x0B => .shadowMismatch
  | 0x0D => .berthPtr
  | 0x10 => .dredgeUnlocalised
  | 0x12 => .lockDiverge
  | 0x13 => .quayFailed
  | _ => .faultSignature

/-- Its severity: NOTICE for SRAM_CE, else the event's (R363). -/
def sigSev (cls : Nat) : Nat := if cls == 6 then 1 else (sigEvent cls).sev

/-- The 64 B of a signature (R354). -/
def State.sigBytes (s : State) (p seq count : Nat) (a : SigArg) : Nat :=
  withCrc 64 (pack [(8, 1), (8, a.cls), (8, a.unit), (3, ((s.quay p).susp.get {} a.unit).st), (5, 0), (8, p), (8, s.lqOf p),
    (16, s.job.tag), (20, s.ident.device), (4, 0), (8, 0), (32, s.job.epoch), (48, a.step.getD s.curStep),
    (16, min count 0xFFFF), (64, s.tide.now), (64, a.addr), (32, a.expected), (32, a.observed), (32, a.detail),
    (32, seq)])

/-- Write a signature's record to its slot (R356), not while that ring is out of reach (R371); `new` where it is its first. While logical quay 0
cannot write at all it is kept (log 117). -/
def State.sigWrite (s : State) (seq rec0 : Nat) (new : Bool) : State :=
  if s.ev.fsFail.isSome then s
  else if !s.evOpen then { s with ev := { s.ev with fsBuf := s.ev.fsBuf.set seq rec0 } }
  else
    let s1 := s.writeB 0 (s.hpar .fsigBase + 64 * (seq % 1024)) 64 rec0 (.fsigRing seq)
    if new && 2 ≤ sigSev (byt rec0 1 1) then s1.setIrq 2 else s1

/-- Raise a fault signature on physical quay `p`: merged with one of the same class, unit and address of this scan period
(R354), else written to its slot (R356); always announced by its event (R364), whose ARG1 holds SEQ and CLASS (R361). -/
def State.sig (s : State) (p : Nat) (a : SigArg) : State :=
  let base := s.hpar .fsigBase
  let old := s.ev.fsMerge.find? (fun e => e.cls == a.cls && e.unit == a.unit && e.addr == a.addr)
  let seq := (old.map (·.seq)).getD s.ev.fsSeq
  let s1 : State := match old with
    | some e =>
      let s0 : State := { s with ev := { s.ev with fsMerge := mapIf (· == e) (fun e => { e with count := e.count + 1 }) s.ev.fsMerge } }
      let rec0 := (s.ev.fsBuf.find seq).getD (s.readB 0 (base + 64 * (seq % 1024)) 64)
      s0.sigWrite seq (withCrc 64 (setFld rec0 191 176 (min (e.count + 1) 0xFFFF))) false
    | none =>
      let s0 : State := { s with ev := { s.ev with fsSeq := s.ev.fsSeq + 1,
                                                   fsMerge := s.ev.fsMerge ++ [{ cls := a.cls, unit := a.unit, addr := a.addr, seq := seq, count := 1 }] } }
      s0.sigWrite seq (s.sigBytes p seq 1 a) true
  s1.evRaise p s1.q0 (sigEvent a.cls) (sigSev a.cls) (a.named.getD a.addr) (pack [(32, seq), (8, a.cls)]) a.depth

/-- A signature of the quay serving port position `l`. -/
def State.sigL (s : State) (l : Nat) (a : SigArg) : State :=
  match s.phys l with
  | none => s
  | some p => s.sig p a

/-! ## The rings out of reach (R371) -/

/-- A write of the event ring was answered ERROR, or its channels are out of service. -/
def State.evRingFail (s : State) (addr : Nat) : State :=
  if s.ev.evFail then s else State.evH { s with ev := { s.ev with evFail := true } } .evtPathFail [(40, addr)]

/-- The write of record `i` was answered ERROR: PROD goes back to it, and it and those after it count as not written.
`rec0` is its 64 B. -/
def State.evRecFail (s : State) (i rec0 : Nat) : State :=
  let base := s.hpar .evtBase
  let slot := fun (j : Nat) => base + 256 + (j % s.evN) * 64
  let lost := (List.range (s.ev.prod - i)).map (fun x => if x == 0 then rec0 else s.readB 0 (slot (i + x)) 64)
  let told := s.ev.retry.contains (.evRec i)
  let s1 := if told then s else foldS lost (fun b s => s.evLose (b / 2 ^ 16 % 4) (byt b 23 20) true) s
  let s2 := { s1 with ev := { s1.ev with prod := min s.ev.prod i, unread := s1.ev.unread.filter (fun e => decide (e.1 < i)),
                                          retry := s1.ev.retry.filter (fun u => u != McUse.evRec i && u != McUse.evRing i) } }
  s2.evRingFail (slot i)

/-- The write of the producer line after record `i` was answered ERROR. -/
def State.evProdFail (s : State) (i addr : Nat) : State :=
  let s1 := if s.ev.retry.contains (.evRing i) then
      { s with ev := { s.ev with prod := min s.ev.prod i, retry := s.ev.retry.filter (fun u => u != McUse.evRec i && u != McUse.evRing i) } }
    else s
  s1.evRingFail addr

/-- The EVT_GAP record of a retry that has succeeded is an event as any other, and enters the error queue of logical quay 0 (R362, R379). -/
def State.gapDone (s : State) : State :=
  match s.ev.gapSent with
  | some r => (({ s with ev := { s.ev with gapSent := none } } : State).modQuay s.q0 (fun q => { q with ev := q.ev.push r [r.code] })).countP s.q0 0x0E 1
  | none => s

/-- A write of one of the two rings was answered OK. With the last retried write of a ring that ring is in reach again, and when
neither is out of reach EVT_PATH_RESTORED is logged (R371). Records missed since the retry wait for the next EVT_GAP. -/
def State.ringAcked (s : State) (u : McUse) : State :=
  if !s.ev.retry.contains u then s else
  let rest := s.ev.retry.filter (· != u)
  let isFs := fun (u : McUse) => match u with
    | .fsigRing _ => true
    | _ => false
  let s1 := { s with ev := { s.ev with retry := rest } }
  let s2 := if rest.any (fun x => isFs x == isFs u) then s1
    else if isFs u then { s1 with ev := { s1.ev with fsFail := none } }
    else State.gapDone { s1 with ev := { s1.ev with evFail := false, told := [],
                                                    gap := s1.ev.gap.map (fun e => (e.1, e.2 - s1.ev.told.get 0 e.1)) } }
  if rest.any (fun x => isFs x == isFs u) || s2.ev.evFail || s2.ev.fsFail.isSome then s2 else s2.evH .evtPathRestored

/-- A write of the fault-signature ring was answered ERROR: its record is kept for the retry. -/
def State.fsRingFail (s : State) (addr seq rec0 : Nat) : State :=
  if s.ev.fsFail.isSome then { s with ev := { s.ev with retry := s.ev.retry.filter (· != McUse.fsigRing seq) } }
  else State.evH { s with ev := { s.ev with fsFail := some (seq, rec0) } } .evtPathFail [(40, addr)]

/-- The EVT_GAP record: TRACE and NOTICE counts in ARG0, ERROR and ALARM counts in ARG1 (R369). -/
def State.gapRec (s : State) : EvRec :=
  { code := Evt.evtGap.code, sev := 2, pquay := s.q0, lquay := 0, job := s.job.tag, epoch := s.job.epoch, step := s.curStep,
    tide := s.tide.now, ltide := s.tide.now,
    arg0 := pack [(32, sat32 (s.ev.gap.get 0 0)), (32, sat32 (s.ev.gap.get 0 1))],
    arg1 := pack [(32, sat32 (s.ev.gap.get 0 2)), (32, sat32 (s.ev.gap.get 0 3))] }

/-- Write an EVT_GAP record, which as an ERROR record enters the error queue of logical quay 0 as well (R362). -/
def State.evGap (s : State) (r : EvRec) : State :=
  ((s.modQuay s.q0 (fun q => { q with ev := q.ev.push r [r.code] })).countP s.q0 0x0E 1).evWrite r

/-- At a manifest scan tide logical quay 0 reads CONS (R365), resumes a ring that shows 64 free slots with EVT_GAP (R369)
and tests the EVT interrupt; the merge period of signatures ends (R354). A ring out of reach is tried again: EVT_GAP and the
producer line, or the signature kept (R371). A retried write answered ERROR leaves the ring out of reach and logs no second
EVT_PATH_FAIL (DEDUCED, log 15). -/
def State.evScan (s0 : State) : State :=
  let s := { s0 with ev := { s0.ev with fsMerge := [] } }
  if !s.ev.reach || (s.phys 0).isNone then s else
  let c32 := s.readB 0 (s.hpar .evtBase + 128) 4
  let d := (s.ev.prod + 2 ^ 32 - c32) % 2 ^ 32
  let cons := if s.lineOk 0 (s.hpar .evtBase + 128) && decide (d ≤ s.ev.prod) then s.ev.prod - d else s.ev.cons
  let s1 := { s with ev := { s.ev with cons := cons, unread := s.ev.unread.filter (fun e => cons ≤ e.1) } }
  let i := s1.ev.prod
  let s2 := if s1.ev.evFail then
      if s1.ev.retry.any (fun u => u == McUse.evRec (i - 1)) || s1.ev.retry.any (fun u => u == McUse.evRing (i - 1)) then s1
      else
        let s' := s1.evWrite s1.gapRec
        { s' with ev := { s'.ev with retry := s'.ev.retry ++ [.evRec i, .evRing i], told := s1.ev.gap, gapSent := some s1.gapRec } }
    else if s1.ev.full && decide (s1.evFill + 64 ≤ s1.evN) then
      State.evGap { s1 with ev := { s1.ev with full := false, gap := [] } } s1.gapRec
    else s1
  let s3 := match s2.ev.fsFail with
    | none => s2
    | some (seq, r) =>
      if s2.ev.retry.contains (McUse.fsigRing seq) then s2
      else State.writeB { s2 with ev := { s2.ev with retry := s2.ev.retry ++ [McUse.fsigRing seq] } } 0
        (s2.hpar .fsigBase + 64 * (seq % 1024)) 64 r (.fsigRing seq)
  s3.evIrqTest

/-- Logical quay 0 takes records again: the buffered ones go out in order of detection (R494), and the signatures kept. -/
def State.evFlush (s : State) : State :=
  if !s.evOpen then s else
  let bufs := s.physAll.flatMap (fun p => (s.quay p).ev.buf)
  let s1 := foldS s.physAll (fun p s => s.modQuay p (fun q => { q with ev := { q.ev with buf := [], bufMixed := [] } })) s
  let s2 := foldS (sortBy (fun a b => decide (a.tide ≤ b.tide)) bufs) (fun r s => s.evSend r) s1
  foldS s.ev.fsBuf (fun e s => s.sigWrite e.1 e.2 true) { s2 with ev := { s2.ev with fsBuf := [] } }

/-- The ring can be written. -/
def State.evReopen (s : State) : State := State.evFlush { s with ev := { s.ev with reach := true } }

/-- The ring first becomes reachable: its producer line is initialised (R494), a write that R371 excepts from R445. -/
def State.evReach (s : State) : State :=
  let s0 := s.writeB 0 (s.hpar .evtBase) 128 0 (.evRing 0)
  State.evReopen { s0 with ev := { s0.ev with prod := 0, cons := 0, unread := [], full := false } }

end Sys2Proof.Machine
end

