-- ==== Sys2Proof/Machine/Peer.lean ====
section
/-! DEFINITION. The peer port (R446 to R452) and the fence class (R145): frames, credits on the virtual channels, the checks
of a received frame, and where traffic of other jobs and other epochs goes (R144, R174, R176). -/

namespace Sys2Proof.Machine

/-! ## Frames -/

/-- The Kuchesta frame header (R447). -/
def frameHdr (dst dstq srcq src vc len : Nat) : BitVec 128 :=
  BitVec.ofNat 128 (withCrc 16 (pack [(20, dst), (4, 0), (4, dstq), (4, srcq), (20, src), (4, 0), (3, vc), (5, 0), (16, len),
    (16, 0)]))

end Sys2Proof.Machine

namespace Sys2Proof

open Machine (fld cdiv)

/-- Fields of a frame header: DST_DEV, DST_QUAY, SRC_QUAY, SRC_DEV, VC, LEN (R447). -/
def Frame.dst (f : Frame) : Nat := fld f.hdr.toNat 19 0
def Frame.dstq (f : Frame) : Nat := fld f.hdr.toNat 27 24
def Frame.srcq (f : Frame) : Nat := fld f.hdr.toNat 31 28
def Frame.src (f : Frame) : Nat := fld f.hdr.toNat 51 32
def Frame.hvc (f : Frame) : Nat := fld f.hdr.toNat 58 56
def Frame.hlen (f : Frame) : Nat := fld f.hdr.toNat 79 64

/-- The work number of the intake berth of a lighter: its sender and LSEQ (R308). -/
def Frame.intakeWork (f : Frame) : Nat := f.src * 2 ^ 32 + fld f.pkt 207 176

/-- Flits of a frame (R447). -/
def Frame.flits (f : Frame) : Nat := cdiv (16 + f.len) 128

end Sys2Proof

namespace Sys2Proof.Machine

/-- Flits of what leaves: a message without a layout counts one flit, and one more for each line it carries (log 9). -/
def Tx.flits : Tx → Nat
  | .frame f => f.flits
  | .anchorAns _ a => 1 + a.piece.length
  | .chain _ m => 1 + m.sums.foldl (fun a l => a + l.length) 0
  | .lines _ m => 1 + m.sums.foldl (fun a l => a + l.length) 0
  | .frozenA _ m => 1 + m.recs.length
  | _ => 1

/-- The destination device of what leaves. -/
def Tx.dst : Tx → Nat
  | .frame f => f.dst
  | .anchorReq d _ | .anchorAns d _ | .resetAns d _ | .freeze d _ | .frozenA d _ | .pass d _ | .chain d _ | .lines d _
  | .imgReq d _ | .imgPiece d _ => d

/-- Credits the quay grants after link up, by virtual channel (R448). -/
def initialCredits : List Nat := [8, 64, 48, 64, 8, 48, 40, 40]

/-! ## Sharing the links (R239, R450) -/

/-- The collective a queued frame of channel 3 belongs to. -/
def Tx.cseq : Tx → Nat
  | .frame f => fld f.pkt 95 64
  | _ => 0

/-- Bytes of a frame, and of its packet alone. -/
def Tx.bytes (t : Tx) : Nat :=
  match t with
  | .frame f => 16 + f.len
  | t => 128 * t.flits

/-- The round of the collectives with the frames of channel 3 (R239). -/
def slotKeys (slots : List (Nat × Nat)) (q : List (Nat × Tx)) : List Nat :=
  slotRound slots (((q.filter (fun e => e.1 == 3)).map (fun e => e.2.cseq)).eraseDups)

/-- The first frame of channel 3, as the round robin of the collectives stands (R239): GWEIGHT × 256 bytes a round. -/
def slotPick (slots : List (Nat × Nat)) (q : List (Nat × Tx)) (d : Drr) : Option Tx × Drr :=
  let ks := slotKeys slots q
  let head := fun c => (q.find? (fun e => e.1 == 3 && e.2.cseq == c)).map (·.2)
  let w := fun c => 256 * max (((slots.find? (fun e => e.1 == c)).map (·.2)).getD 1) 1
  let r := Drr.serve ks (fun c => (head c).map (fun t => t.bytes - 16)) w (26 * (ks.length + 1)) d
  (r.1.bind head, r.2)

/-- Take what may leave (R449, R450): VC 0 first, then the channels by their weights; a frame leaves when the credits held for its
channel cover it, and a channel whose first frame lacks credits counts as one without a frame (log 65). Answers the port and what
left. -/
def peerDrain (w : Nat → Nat) (slots : List (Nat × Nat)) : Nat → Peer → Peer × List Tx
  | 0, p => (p, [])
  | n + 1, p =>
    let head := fun (v : Nat) => if v == 3 then (slotPick slots p.txq p.slots).1 else (p.txq.find? (fun e => e.1 == v)).map (·.2)
    let fits := fun (v : Nat) => (head v).bind (fun t => if t.flits ≤ p.crd.get 0 v then some t.bytes else none)
    let c := if (fits 0).isSome then (some 0, p.sched) else Drr.serve [1, 2, 3, 4, 5, 6, 7] fits (fun v => 128 * w v) 400 p.sched
    match c.1 with
    | none => ({ p with sched := c.2 }, [])
    | some v =>
      match head v with
      | none => (p, [])
      | some t =>
        let sl := if v == 3 then (slotPick slots p.txq p.slots).2 else p.slots
        let r := peerDrain w slots n { p with sched := c.2, slots := sl, txq := removeFirst (fun e => e.1 == v && e.2 == t) p.txq,
                                              crd := p.crd.set v (p.crd.get 0 v - t.flits) }
        (r.1, t :: r.2)

/-- Whether peer output is stopped but for fence notices (R146). -/
def State.quiet (s : State) : Bool := s.job.quiescent.isSome

/-- A packet is a fence notice (R145). -/
def Tx.isNotice (v : Nat) : Tx → Bool
  | .frame f => v == 0 && f.pkt % 16 == 1
  | _ => false

/-- The tide a frame leaves starts its acknowledgement timeout (R85, R94, R254, R401). -/
def Quay.departed (now : Nat) (q : Quay) (t : Tx) : Quay :=
  match t with
  | .frame f =>
    match f.vc with
    | 1 =>
      if f.pkt % 16 == 1 || f.pkt % 16 == 2 then
        { q with conv := { q.conv with sent := q.conv.sent.map (fun g => { g with copies := g.copies.map (fun c =>
            if c.dev == f.dst && c.lseq.toNat == fld f.pkt 207 176 && c.st == .sent then { c with since := some now } else c) }) } }
      else q
    | 5 => { q with rmt := { q.rmt with oot := q.rmt.oot.map (fun o =>
        if o.st == .sent && o.req.dev == f.dst && o.quay == f.dstq && o.job == fld f.pkt 31 16 && o.kind == f.pkt % 16 &&
          (if o.kind == 1 then o.tag % 2 ^ 32 else o.rseq.toNat) == fld f.pkt 159 128 then { o with since := now } else o) } }
    | _ => q
  | .anchorReq dst a =>
    if a.stripe == 0xFFFFFFFF then
      let f := fun (r : Reset) => { r with since := some now }
      { q with conv := { q.conv with resets := mapIf (fun r => r.dev == dst && r.restore == a.restore && r.mark.isNone) f q.conv.resets } }
    else
      let f := fun (x : Anchor) => { x with unsent := x.unsent - 1, since := if x.unsent ≤ 1 then some now else x.since }
      { q with conv := { q.conv with anch := mapIf (fun x => x.convoy == a.hd.convoy && x.stripe == a.stripe && x.j == a.j) f q.conv.anch } }
  | _ => q

/-- Send on the peer port of position `l` what credits allow; in Hold and while the link is down nothing leaves. -/
def State.peerPump (s : State) (l : Nat) : State :=
  let pt := s.port l
  if !pt.peer.up || s.pwr.state == .hold || s.pwr.off || !s.serving l then s else
  let p := if s.quiet then { pt.peer with txq := pt.peer.txq.filter (fun e => e.2.isNotice e.1) } else pt.peer
  let r := peerDrain (fun v => s.lpar l (.ppW v)) s.slotWeights p.txq.length p
  let s1 := s.modPort l (fun pt => { pt with peer := { r.1 with sent := r.2.reverse ++ r.1.sent } })
  s1.modLquay l (fun q => r.2.foldl (fun q t => q.departed s.clock t) q)

/-- Hand something to the peer port of position `l` on channel `vc`. -/
def State.sendTx (s : State) (l vc : Nat) (t : Tx) : State :=
  if s.quiet && !t.isNotice vc then s else
  (s.modPort l (fun pt => { pt with peer := { pt.peer with txq := pt.peer.txq ++ [(vc, t)] } })).peerPump l

/-- Send a packet of `len` bytes to a device's logical quay `dq`, where a displacement redirects it to the stand-in holder
(R166). -/
def State.sendPkt (s : State) (l vc dst dq len pkt : Nat) : State :=
  s.sendTx l vc (.frame { vc := vc, hdr := frameHdr dst dq l s.ident.device vc len, len := len, pkt := pkt })

/-- Whether receive credits of a channel are withheld: lighters from T2 of P3 on, collective data and remote requests from
T3 of P2 on (R313), and no other (R314). -/
def Quay.withholds (q : Quay) (vc : Nat) : Bool :=
  (vc == 1 && decide (2 ≤ q.pools.level.get 0 3)) || ((vc == 3 || vc == 5) && decide (3 ≤ q.pools.level.get 0 2))

/-- Return a frame's receive credits (R449), or keep them while its channel's are withheld (R313). -/
def State.rxReturn (s : State) (l : Nat) (f : Frame) : State :=
  let w := (s.lquay l).withholds f.vc
  s.modPort l (fun pt => { pt with peer :=
    if w then { pt.peer with kept := pt.peer.kept.set f.vc (pt.peer.kept.get 0 f.vc + f.flits) }
    else { pt.peer with grant := pt.peer.grant.set f.vc (pt.peer.grant.get 0 f.vc + f.flits) } })

/-- Whether position `l` takes packets: it has a quay in service, enabled, and power (R425, R476). -/
def State.rxOpen (s : State) (l : Nat) : Bool := s.serving l && s.pwr.state != .hold && !s.pwr.off

/-- Return the credits kept once the position grants credits and their channel's are withheld no more (R313, R423). -/
def State.rxRelease (s : State) (l : Nat) : State :=
  if !s.rxOpen l then s else
  foldS (List.range 8) (fun v s =>
    if (s.lquay l).withholds v || (s.port l).peer.kept.get 0 v == 0 then s else
    s.modPort l (fun pt => { pt with peer :=
      { pt.peer with grant := pt.peer.grant.set v (pt.peer.grant.get 0 v + pt.peer.kept.get 0 v), kept := pt.peer.kept.set v 0 } })) s

/-- An arriving frame uses the interface's credits. -/
def State.rxTake (s : State) (l : Nat) (f : Frame) : State :=
  s.modPort l (fun pt => { pt with peer := { pt.peer with grant := pt.peer.grant.set f.vc (pt.peer.grant.get 0 f.vc - f.flits) } })

/-- Withhold the credits of a frame that is held, and give them back: on the channels whose flow may be withheld, 1, 3 and 5; from
the answer channels a held packet moves out of the receive buffer (R449). -/
def State.rxKeep (s : State) (l : Nat) (f : Frame) : State := if [1, 3, 5].contains f.vc then s.rxTake l f else s

def State.rxGive (s : State) (l : Nat) (f : Frame) : State := if [1, 3, 5].contains f.vc then s.rxReturn l f else s

/-- The channel of what leaves or arrives: a message without a layout goes on the channel R448 gives its kind, a job-image request and
piece on those of remote requests and answers, where flow may be withheld as R169 asks (log 9). -/
def Tx.chan : Tx → Nat
  | .frame f => f.vc
  | .anchorReq .. | .freeze .. | .pass .. | .chain .. => 1
  | .anchorAns .. | .resetAns .. | .frozenA .. | .lines .. => 2
  | .imgReq .. => 5
  | .imgPiece .. => 6

/-- Withhold the credits of a message that is held, and give them back (R169, R176). -/
def State.msgKeep (s : State) (l : Nat) (t : Tx) : State :=
  if !([1, 3, 5].contains t.chan) then s else
  s.modPort l (fun pt => { pt with peer := { pt.peer with grant := pt.peer.grant.set t.chan (pt.peer.grant.get 0 t.chan - t.flits) } })

def State.msgGive (s : State) (l : Nat) (t : Tx) : State :=
  if !([1, 3, 5].contains t.chan) then s else
  s.modPort l (fun pt => { pt with peer := { pt.peer with grant := pt.peer.grant.set t.chan (pt.peer.grant.get 0 t.chan + t.flits) } })

/-- The checks of a received frame (R451): `kindOk` that the packet's kind belongs to its channel, `src` its source device
field where it has one. -/
def State.frameOk (s : State) (l vc : Nat) (f : Frame) (kindOk : Bool) (src : Option Nat) : Bool :=
  crcOk 16 f.hdr.toNat && f.dst == s.ident.device && f.dstq == l && f.vc == vc && f.hvc == vc && kindOk &&
  f.hlen == f.len && decide (1 ≤ f.len) && decide (f.len ≤ 6144) &&
  (match src with
    | none => true
    | some d => d == f.src)

/-- A frame of position `l` that fails a check is dropped and counted (R451). -/
def State.pktDrop (s : State) (l : Nat) (n : Nat := 1) : State := s.countL l 0x17 n

/-- Whether the bypass crossbar keeps what arrives for a position: a relief of it is under way (R163, R164, R435). -/
def State.xbarKeeps (s : State) (l : Nat) : Bool := s.reliefs.any (fun r => r.lq == l && r.st != .inService)

/-- Receive a frame on channel `vc`: a port position that does not exist faults; a closed one takes nothing, but the crossbar
keeps a frame while it switches; a frame that fails a check is dropped; else `k` acts, and the frame's credits are
returned. -/
def State.recv (s : State) (l vc : Nat) (f : Frame) (kindOk : Bool) (src : Option Nat) (k : State → State) :
    Host.Outcome State Fault Refusal :=
  if s.fit.nActive ≤ l then .fault .noSuchPort
  else if s.xbarKeeps l then .next (s.modPort l (fun p => { p with peer := { p.peer with xbar := p.peer.xbar ++ [f] } }))
  else if !s.rxOpen l then .next s
  else if !s.frameOk l vc f kindOk src then .next ((s.rxTake l f).pktDrop l |>.rxReturn l f)
  else .next ((k (s.rxTake l f)).rxReturn l f)

/-- Receive a message that has no layout (log 9). -/
def State.recvMsg (s : State) (l : Nat) (t : Tx) (k : State → State) : Host.Outcome State Fault Refusal :=
  if s.fit.nActive ≤ l then .fault .noSuchPort
  else if s.xbarKeeps l then .next (s.modPort l (fun p => { p with peer := { p.peer with xmsg := p.peer.xmsg ++ [t] } }))
  else if !s.rxOpen l then .next s
  else .next (k s)

/-! ## Jobs and epochs (R144, R174, R176) -/

/-- Where a packet's job tag stands. -/
inductive JobGate where
  | active | torn | other
  deriving DecidableEq, Repr

/-- Whether a job is active, starting or draining. -/
def State.jobOn (s : State) : Bool := s.job.phase == .starting || s.job.phase == .ready

/-- The gate of a job tag: the active job's, a tombstoned one's, or one this device has not started. A draining job's tag
is in a tombstone (R173). -/
def State.jobGate (s : State) (tag : Nat) : JobGate :=
  if s.job.tombs.any (fun t => t.tag == tag) then .torn
  else if s.jobOn && s.job.tag == tag then .active
  else .other

/-- Whether a device is in the fenced set (R143). -/
def State.isFenced (s : State) (d : Nat) : Bool := (s.job.fenced.find d).isSome

/-- A fence-class packet (R145). -/
def State.fencePkt (s : State) (kind cause subj subjq fepoch step group cseq line dtide : Nat) : Nat :=
  withCrc 64 (pack [(4, kind), (4, 0), (8, cause), (16, s.job.tag), (32, s.job.epoch), (20, s.ident.device), (4, 0), (8, 0),
    (20, subj), (4, 0), (8, subjq), (32, fepoch), (48, step), (12, group), (4, 0), (32, cseq), (32, line), (64, dtide),
    (128, 0)])

/-- Send a fence-class packet to a device. -/
def State.sendFence (s : State) (l dst pkt : Nat) : State := s.sendPkt l 0 dst 0 64 pkt

/-- Answer a fenced device's packet with one fence notice (R144). -/
def State.fenceNotice (s : State) (l dev : Nat) : State :=
  s.sendFence l dev (s.fencePkt 1 0 dev 0 (s.job.fenced.get 0 dev) 0 0 0 0 0)

/-- Drop traffic of a tombstoned job (R174). -/
def State.tornDrop (s : State) (l : Nat) : State := s.countL l 0x16 1

/-- Hold traffic of a job not yet started for JOB_HOLD_T, its credits unreturned: what `recv` returns is taken here again
(R176). -/
def State.holdForJob (s : State) (l job : Nat) (f : Frame) : State :=
  let s1 := s.rxKeep l f
  { s1 with job := { s1.job with heldJob := s1.job.heldJob ++ [{ pos := l, since := s.clock, job := job, frame := f }] } }

/-- The gate of a job packet, in the order of R247: a fenced sender is refused with a notice, a tombstoned tag dropped, an unknown
one held by `hold`, and a quiescent harbour refuses what is left; else `k` acts (R144, R146, R174, R176). -/
def State.gate (s : State) (l job src : Nat) (hold k : State → State) : State :=
  if s.isFenced src then s.fenceNotice l src
  else match s.jobGate job with
    | .torn => s.tornDrop l
    | .other => hold s
    | .active => if s.quiet then s.pktDrop l else k s

/-- A packet at its gate. -/
def State.jobPkt (s : State) (l job src : Nat) (f : Frame) (k : State → State) : State := s.gate l job src (fun s => s.holdForJob l job f) k

/-- Hold a message without a layout, its credits withheld (R144, R176, log 9). -/
def State.holdMsg (s : State) (l job : Nat) (t : Tx) : State :=
  State.msgKeep { s with job := { s.job with heldMsg := s.job.heldMsg ++ [{ pos := l, since := s.clock, job := job, msg := t }] } } l t

/-- A message without a layout at its gate. -/
def State.jobMsg (s : State) (l job src : Nat) (t : Tx) (k : State → State) : State := s.gate l job src (fun s => s.holdMsg l job t) k

end Sys2Proof.Machine
end

