-- ==== Sys2Proof/Machine/Suspect.lean ====
section
/-! DEFINITION. Fatal internal errors, abort requests (R111), suspect datapaths (R346, R347) and the berth pools (R305 to
R316). -/

namespace Sys2Proof.Machine

/-! ## Fatal errors and abort requests -/

/-- A quay reports a fatal internal error (R162): it is declared failed before the command ends. -/
def State.fatal (s : State) (p : Nat) (logged : Bool := false) : State :=
  s.modQuay p (fun q => { q with fatal := if q.failed then q.fatal else if logged then 2 else max q.fatal 1 })

/-- The same for the quay serving a port position. -/
def State.fatalL (s : State) (l : Nat) : State :=
  match s.phys l with
  | none => s
  | some p => s.fatal p

/-- The record of an unmoored step. -/
def State.stepRec (s : State) (no : Nat) : Option StepRec := s.steps.recs.find? (fun r => r.no == no)

/-- Change the record of a step. -/
def State.modStep (s : State) (no : Nat) (f : StepRec → StepRec) : State :=
  { s with steps := { s.steps with recs := mapIf (fun r => r.no == no) f s.steps.recs } }

/-- An abort request for a step (R111). -/
def State.requestAbort (s : State) (no : Nat) : State := s.modStep no (fun r => { r with abortReq := r.abortReq + 1 })

/-- Abort requests for every unmoored step to whose mooring tally the harbour has not contributed (R203, R344). -/
def State.requestAbortOpen (s : State) : State :=
  foldS (s.steps.recs.filter (fun r => !r.moorSent)) (fun r s => s.requestAbort r.no) s

/-- The step whose taint or abort request names `no`, if it is unmoored here and not aborting. -/
def State.liveStep (s : State) (no : Nat) : Bool := s.steps.recs.any (fun r => r.no == no && r.state != .aborting)

/-! ## Suspect datapaths -/

/-- The free relief quay of a base die (R162). -/
def State.freeRelief (s : State) (die : Nat) : Option Nat :=
  ((List.range s.fit.nRelief).map (· + 16)).find? (fun r => s.die r == die && !(s.quay r).failed && !(s.quay r).inService &&
    !s.reliefs.any (fun x => x.p == r))

/-- ARG0 of QUAY_FAILED: the physical index of the quay, and of its relief quay where one is free (R165, R361). -/
def State.failedArg (s : State) (p : Nat) : Nat :=
  pack [(32, p), (8, (s.freeRelief (s.die p)).getD 0)]

/-- A suspect event of a unit of physical quay `p`, with its signature (R346). -/
def State.suspect (s : State) (p unit : Nat) (a : SigArg) : State :=
  let u := (s.quay p).susp.get {} unit
  let lim := max ((s.param? p .suspectLimit).getD 3) 1
  if u.st == 3 then s.sig p a
  else if lim ≤ u.count + 1 then
    let s1 := s.modQuay p (fun q => { q with susp := q.susp.set unit { u with st := 3, count := u.count + 1, settle := none, hold := none } })
    ((s1.sig p a).sig p { cls := 0x13, unit := unit, addr := a.addr, named := some (s.failedArg p) }).fatal p true
  else
    let at_ := s.clock + (s.param? p .marginSettle).getD 1000000
    let u' := { u with st := 1, count := u.count + 1, settle := if u.st == 1 then u.settle else some at_, hold := none }
    (s.modQuay p (fun q => { q with susp := q.susp.set unit u' })).sig p a

/-- A suspect event at a port position. -/
def State.suspectL (s : State) (l unit : Nat) (a : SigArg) : State :=
  match s.phys l with
  | none => s
  | some p => s.suspect p unit a

/-- Whether an operation of a unit at a position meets an error of the unit's arithmetic: the error is over with it, and makes the unit suspect,
with a signature (R329, R345, R346). -/
def State.unitErr (s : State) (l unit : Nat) (a : SigArg) : State × Bool :=
  if !(s.lquay l).glitch.contains unit then (s, false)
  else ((s.modLquay l (fun q => { q with glitch := removeFirst (· == unit) q.glitch })).suspectL l unit a, true)

/-- A residue check of a unit (R345): whether it fails on what lies at an address. -/
def State.residueErr (s : State) (l unit addr : Nat) : State × Bool := s.unitErr l unit { cls := 0x0C, unit := unit, addr := addr }

/-- A read of an item of the staging SRAM on a position (R335, R336): a word written under a flip mask with one or two bits
flipped is corrected, with more the item is delivered with the poison mark; the flag says so. A parity error in the valid array, unit 8 of
`glitch`, delivers it with the mark too (R337). Targets are those of R338. -/
def State.sramRead (s : State) (l target key : Nat) : State × Bool :=
  if (s.lquay l).glitch.contains 8 then
    ((s.modLquay l (fun q => { q with glitch := removeFirst (· == 8) q.glitch })).countL l 0x0C 1 |>.sigL l
      { cls := 0x07, unit := 8, addr := key % 2 ^ 64 }, true)
  else match (s.lquay l).flips.find? (fun f => f.1 == target && f.2.1 == key) with
  | none => (s, false)
  | some f =>
    if f.2.2 ≤ 2 then
      (((s.modLquay l (fun q => { q with flips := q.flips.filter (· ≠ f) })).countL l 0x0B 1).sigL l
        { cls := 0x06, unit := 8, addr := key % 2 ^ 64, detail := f.2.2 }, false)
    else ((s.countL l 0x0C 1).sigL l { cls := 0x07, unit := 8, addr := key % 2 ^ 64, detail := f.2.2 }, true)

/-- The MARGIN_REQ pin (R347). -/
def State.marginReq (s : State) : Bool :=
  s.physIn.any (fun p => (s.quay p).susp.any (fun e => e.2.st == 1 || e.2.st == 2))

/-! ## Berth pools (R305 to R315) -/

/-- Bytes of a berth of pool `p` (R305). -/
def berthSize (p : Nat) : Nat := 256 * 4 ^ p

/-- Berths of each tier of a pool open to ordinary requests: the salvage reserve is set apart (R307). -/
def State.berthSramN (s : State) (l p : Nat) : Nat := s.lpar l (.berthSram p) - (if p == 2 then 8 else 0)
def State.berthMemN (s : State) (l p : Nat) : Nat := s.lpar l (.berthMem p)

inductive BMode where
  | wait | nowait | mem
  deriving DecidableEq, Repr

/-- A free index of a tier of a pool. -/
def Pools.freeIdx (b : Pools) (pool : Nat) (mem : Bool) (n : Nat) : Option Nat :=
  let used := (b.live.filter (fun x => x.pool == pool && x.mem == mem && x.owner != .demand)).map (·.idx)
  if n ≤ used.length then none else (List.range (used.length + 1)).find? (fun i => !used.contains i)

/-- The 32-bit handle of a berth (R311). -/
def Berth.handle (b : Berth) : Nat := pack [(3, b.pool), (1, b2n b.mem), (20, b.idx), (8, b.gen)]

/-- Hold a berth, and keep its handle. -/
def Pools.hold (b : Pools) (pool : Nat) (mem : Bool) (idx : Nat) (owner : Owner) (work : Nat) : Pools :=
  let x : Berth := { pool := pool, mem := mem, idx := idx, gen := b.gens.get 0 (pool, mem, idx), count := 1, owner := owner, work := work }
  { b with live := b.live ++ [x], handles := b.handles ++ [(owner, work, x.handle)] }

/-- Take a berth, SRAM first, and keep its handle; the flag says whether it is of the memory tier. -/
def Pools.take (b : Pools) (pool sram mem : Nat) (memOnly : Bool) (owner : Owner) (work : Nat) : Option (Pools × Bool) :=
  let put := fun (m : Bool) (i : Nat) => (b.hold pool m i owner work, m)
  match (if memOnly then none else b.freeIdx pool false sram) with
  | some i => some (put false i)
  | none => (b.freeIdx pool true mem).map (put true)

/-- Occupancy in 256ths (R313). -/
def State.occupancy (s : State) (l p : Nat) : Nat :=
  let n := ((s.lquay l).pools.live.filter (fun x => x.pool == p && x.owner != .demand)).length
  n * 256 / max (s.berthSramN l p + s.berthMemN l p) 1

/-- The level of a pool after its occupancy changed, with 8 of hysteresis, and its records (R313). -/
def State.berthLevel (s : State) (l p : Nat) : State :=
  let o := s.occupancy l p
  let old := (s.lquay l).pools.level.get 0 p
  let t := fun i => s.lpar l (if i == 1 then .berthT1 p else if i == 2 then .berthT2 p else .berthT3 p)
  let up := (([1, 2, 3] : List Nat).filter (fun i => decide (t i ≤ o))).length
  let stay := (([1, 2, 3] : List Nat).filter (fun i => decide (i ≤ old) && decide (t i ≤ o + 8))).length
  let lv := max up stay
  let s1 := s.modLquay l (fun q => { q with pools := { q.pools with level := q.pools.level.set p lv } })
  let s2 := if old < 1 && 1 ≤ lv then s1.evL l .berthWarn [(3, p), (8, o)] else s1
  if old < 3 && 3 ≤ lv then s2.evL l .berthCrit [(3, p), (8, o)] else s2

/-- Whether two berths of the same work number are of one piece of work: a collective holds berths of several owner classes. -/
def Owner.akin (a b : Owner) : Bool :=
  let coll := fun (o : Owner) => o == .accum || o == .staging || o == .chunk || o == .relay
  a == b || (coll a && coll b)

/-- The piece of work of a berth: each line group that a collective relays has a berth number of its own. -/
def Owner.piece (o : Owner) (work : Nat) : Nat := if o == .relay then work % 2 ^ 32 else work

/-- The berths a piece of work holds in the pools of a quay. -/
def Pools.holds (b : Pools) (owner : Owner) (work : Nat) : Nat :=
  (b.live.filter (fun x => x.owner.akin owner && x.owner.piece x.work == owner.piece work)).length

/-- The work number of a group of lines that a collective relays, or re-sends from where they were written (R308). -/
def relayWork (cseq sidx off : Nat) : Nat := cseq + (sidx * 2 ^ 32 + off / 32) * 2 ^ 32

/-- Whether a frame carries lines of a relayed group. -/
def relaysGroup (f : Frame) (work : Nat) : Bool :=
  (f.pkt % 16 == 3 || f.pkt % 16 == 4) && relayWork (byt f.pkt 11 8) (fld f.pkt 144 128) (byt f.pkt 23 20) == work

/-- Whether a piece of work holds the 256 berths it may (R309). -/
def Pools.full (b : Pools) (owner : Owner) (work : Nat) : Bool := decide (256 ≤ b.holds owner work)

/-- The request at the head of a pool's queue; a claim beyond the limit of its work is not yet one (R309, R310). -/
def Pools.head (b : Pools) (pool : Nat) : Option BReq := b.queue.find? (fun r => r.pool == pool && !b.full r.owner r.work)

/-- Whether an owner's requests take the memory tier only (R308). -/
def Owner.memOnly : Owner → Bool
  | .spill | .spool => true
  | _ => false

/-- Ask for a berth (R308 to R310): whether it was met; a WAIT or MEM request that is not met joins the queue. A piece of
work holds at most 256 (R309). -/
def State.berthAlloc (s : State) (l pool : Nat) (owner : Owner) (work : Nat) (mode : BMode) : State × Bool :=
  let b := (s.lquay l).pools
  let blocked := b.full owner work || (b.head pool).isSome
  match (if blocked then none else b.take pool (s.berthSramN l pool) (s.berthMemN l pool) (mode == .mem) owner work) with
  | some (b', m) =>
    let s1 := s.modLquay l (fun q => { q with pools := b' })
    ((if m then s1.countL l 0x23 1 else s1).berthLevel l pool, true)
  | none =>
    if mode == .nowait then (s, false)
    else (s.modLquay l (fun q => { q with pools := { q.pools with queue := q.pools.queue ++ [{ pool := pool, owner := owner, work := work }] } }), false)

/-- Serve the queue of a pool from its freed berths, head first: `n` is the number of requests looked at. -/
def State.berthServe (s : State) (l pool : Nat) : Nat → State
  | 0 => s
  | n + 1 =>
    let b := (s.lquay l).pools
    match b.head pool with
    | none => s
    | some r =>
      match b.take pool (s.berthSramN l pool) (s.berthMemN l pool) r.owner.memOnly r.owner r.work with
      | none => s
      | some (b', m) =>
        let s1 := s.modLquay l (fun q => { q with pools := { b' with queue := removeFirst (fun x => x == r) b'.queue } })
        (if m then s1.countL l 0x23 1 else s1).berthServe l pool n

/-- Free berths of the given ones: GEN advances, the queues are served, those of other pools too, where a request of the same work may wait
beyond its limit, and the levels follow (R309 to R311). -/
def State.berthFree (s : State) (l : Nat) (p : Berth → Bool) (drop : BReq → Bool) : State :=
  let b := (s.lquay l).pools
  let out := b.live.filter p
  if out.isEmpty && !b.queue.any drop then s else
  let gens := out.foldl (fun g x => g.set (x.pool, x.mem, x.idx) ((x.gen + 1) % 256)) b.gens
  let s1 := s.modLquay l (fun q =>
    { q with pools := { q.pools with live := q.pools.live.filter (fun x => !p x), gens := gens,
                                     handles := q.pools.handles.filter (fun h => !out.any (fun x => x.handle == h.2.2)), queue := q.pools.queue.filter (fun r => !drop r) } })
  let pools := (List.range 6).filter (fun i => out.any (fun x => x.pool == i) || b.queue.any (fun r => r.pool == i))
  foldS pools (fun i s => (s.berthServe l i (out.length + 1)).berthLevel l i) s1

/-- Free every berth of a piece of work, and drop its waiting requests (R311). -/
def State.berthFreeWork (s : State) (l : Nat) (owner : Owner) (work : Nat) : State :=
  s.berthFree l (fun x => x.owner == owner && x.work == work) (fun r => r.owner == owner && r.work == work)

/-- Whether a piece of work holds a berth. -/
def State.hasBerth (s : State) (l : Nat) (owner : Owner) (work : Nat) : Bool :=
  (s.lquay l).pools.live.any (fun x => x.owner == owner && x.work == work)

/-- Have `n` berths of a pool for a piece of work, asking for what is neither held nor waited for; the flag says whether they are held. -/
def State.berthWant (s : State) (l pool : Nat) (owner : Owner) (work n : Nat) : State × Bool :=
  let mine := fun (s : State) => ((s.lquay l).pools.live.filter (fun b => b.owner == owner && b.work == work)).length
  let asked := ((s.lquay l).pools.queue.filter (fun b => b.owner == owner && b.work == work)).length
  let s1 := foldS (List.range (n - mine s - asked)) (fun _ s => (s.berthAlloc l pool owner work .wait).1) s
  (s1, decide (n ≤ mine s1))

/-- Keep `n` berths of a piece of work and free the others. -/
def State.berthKeep (s : State) (l : Nat) (owner : Owner) (work n : Nat) : State :=
  let extra := ((s.lquay l).pools.live.filter (fun b => b.owner == owner && b.work == work)).drop n
  s.berthFree l (fun b => extra.contains b) (fun r => n == 0 && r.owner == owner && r.work == work)

/-- How many users a berth of work `work` has, for the owners whose work is to be found in the quay's own tables (R308): the copies of
a lighter not yet acknowledged, an arrived lighter held or being applied, the items retained, the local write and the children of a relayed
line group, or 1 while the work goes on. -/
def State.berthUsers (s : State) (l : Nat) (owner : Owner) (work : Nat) : Option Nat :=
  let q := s.lquay l
  match owner with
  | .lighter =>
    if q.conv.opened.any (fun o => o.id == work) then some 1
    else some (((q.conv.sent.filter (fun g => g.id == work)).map (fun g => max 1 (g.copies.filter (fun c => c.st != .acked)).length)).foldl max 0)
  | .intake => some ((q.conv.heldL.filter (fun x => x.frame.intakeWork == work)).length + (q.packs.filter (fun a => a.dev * 2 ^ 32 + a.lseq.toNat == work)).length)
  | .retained => some ((q.rmt.oot.filter (fun o => o.kind != 1 && o.berth == work)).length)
  | .demand => some (b2n (q.salv.passes.any (fun p => p.no == work && !p.lines.isEmpty)))
  | .ovf => some (b2n (!q.conv.appends.isEmpty || !q.conv.ovfPut.isEmpty || q.ops.any (fun o => o.stage == .waitLog) || q.conv.heldL.any (fun x => x.why == .space)))
  | .combine => some (q.rmt.comb.filter (fun c => c.addr == work)).length
  | .background => some (b2n (q.salv.passes.any (fun p => !p.audit && p.lines.isEmpty)))
  | .dredge => some (b2n (q.salv.passes.any (fun p => p.audit && p.convoy * 2 ^ 32 + p.stripe == work) ||
      q.dredge.wait.any (fun x => x.1 * 2 ^ 32 + x.2 == work)))
  | .relay => some (((s.port l).peer.txq.filter (fun e => e.1 == 3 && (match e.2 with
      | .frame f => relaysGroup f work
      | _ => false))).length +
      b2n (q.ops.any (fun o => match o.src with
        | .coll k n _ => relayWork k (n / 2 ^ 32) (n % 2 ^ 32) == work
        | _ => false)) + (s.coll.early.filter (fun i => i.pos == l && relaysGroup i.frame work)).length)
  | .flush => some (b2n (s.locker.flush.any (fun f => f.phase == .zeroing || f.phase == .writing)))
  | _ => none

/-! ## Berths in memory (R58, R306) -/

/-- Start and bytes of the memory tier of a pool (R306). -/
def State.memTier (s : State) (l i : Nat) : Nat × Nat :=
  let size := fun (j : Nat) => s.lpar l (.berthMem j) * berthSize j * 33 / 32
  (s.lpar l .berthMemBase + (List.range i).foldl (fun a j => a + size j) 0, size i)

/-- The local address of a berth of the memory tier; its check values follow its bytes. -/
def State.berthAddr (s : State) (l pool idx : Nat) : Nat := (s.memTier l pool).1 + idx * (berthSize pool * 33 / 32)

/-- Write lines into a memory-tier berth from line `n` on, and their check values in order after the berth's bytes. -/
def State.berthFill (s : State) (l : Nat) (b : Berth) (n : Nat) (ls : List Line) : State :=
  let a := s.berthAddr l b.pool b.idx
  (foldS ls.zipIdx (fun e s => s.ownWrite l (a + 128 * (n + e.2)) 128 e.1.toNat) s).ownWrite l (a + berthSize b.pool + 4 * n) (4 * ls.length)
    (pack (ls.map (fun x => (32, lineCrc x))))

/-- Put lines into a berth from line `n` on: their check values stay with it, and in the memory tier the lines and values are written (R306,
R307, R328); of an SRAM berth, whose words ECC guards (R336), only how many lines it holds is kept. What the berth holds in other lines stays. -/
def State.berthPutIn (s : State) (l : Nat) (b : Berth) (ls : List Line) (n : Nat) : State :=
  let crc := fun x => if b.mem then lineCrc x else 0
  let crcs := ((b.crcs ++ List.replicate n (crc 0)).take n) ++ ls.map crc ++ b.crcs.drop (n + ls.length)
  let s1 := s.modLquay l (fun q => { q with pools := { q.pools with live := mapIf (fun x => x == b) (fun x => { x with crcs := crcs, wr := x.wr + 1 }) q.pools.live } })
  if b.mem then s1.berthFill l b n ls else s1

/-- Put lines into the newest berth of a piece of work from line `n` on. -/
def State.berthPut (s : State) (l : Nat) (owner : Owner) (work : Nat) (ls : List Line) (n : Nat := 0) : State :=
  match (s.lquay l).pools.live.reverse.find? (fun b => b.owner == owner && b.work == work) with
  | none => s
  | some b => s.berthPutIn l b ls n

/-- Take the berths of `n` lines of demand salvage from the reserve, the last eight berths of the SRAM tier of P2; those of passes that are over
are freed first (R307). -/
def State.reserveTake (s : State) (l work n : Nat) : State :=
  let gone := fun (b : Berth) => b.owner == .demand && !(s.lquay l).salv.passes.any (fun p => p.no == b.work)
  let base := s.berthSramN l 2
  foldS (List.range n) (fun _ s => s.modLquay l (fun q =>
    let used := (q.pools.live.filter (fun b => b.owner == .demand)).map (·.idx)
    match (List.range 8).find? (fun i => !used.contains (base + i)) with
    | some i => { q with pools := q.pools.hold 2 false (base + i) .demand work }
    | none => q)) (s.berthFree l gone (fun _ => false))

/-! ## Checked accesses (R312) -/

/-- What a unit does with a berth: reach bytes of it, share it, or release it (R311, R312). -/
inductive BerthOp where
  | access (off len : Nat)
  | share (n : Nat)
  | release
  deriving DecidableEq, Repr

/-- The check of R312 that an access of a unit of class `o` through handle `h` fails, numbered 1 to 6 in the order of its table. `n`: the
berths of each tier of the handle's pool. -/
def Pools.refusal (b : Pools) (n : Nat → Bool → Nat) (o : Owner) (h : Nat) (op : BerthOp) : Option Nat :=
  let pool := fld h 2 0
  let mem := bitOf h 3
  let idx := fld h 23 4
  let d := b.live.find? (fun x => x.pool == pool && x.mem == mem && x.idx == idx)
  let range := match op with
    | .access off len => decide (berthSize pool < off + len)
    | _ => false
  let align := match op with
    | .access off len => off % 16 != 0 || len % 16 != 0
    | _ => false
  if 5 < pool then some 1
  else if decide (n pool mem ≤ idx) || range then some 2
  else if align then some 3
  else match d with
    | none => some 4
    | some x =>
      if x.gen != fld h 31 24 then some 4
      else if x.owner != o then some 5
      else match op with
        | .access .. => none
        | .share k => if 255 < x.count + k then some 6 else none
        | .release => if x.count = 0 then some 6 else none

/-- The code of an owner class in BERTH_PTR, and the unit that reaches its berths (log 69). -/
def Owner.code (o : Owner) : Nat :=
  (([.lighter, .intake, .anchor, .accum, .staging, .retained, .combine, .background, .flush, .dredge, .page, .spill, .spool, .chunk, .relay, .demand, .ovf] : List Owner).idxOf o)
def Owner.unit (o : Owner) : Nat :=
  match o with
  | .lighter | .intake | .anchor => 2
  | .accum | .staging | .chunk | .relay => 6
  | .retained | .combine => 9
  | .background | .dredge | .demand => 3
  | .flush | .page | .spill | .spool | .ovf => 0xA

/-- The check of R312 that an access to the berths of a piece of work fails, with the handle. -/
def State.berthBad (s : State) (l : Nat) (owner : Owner) (work : Nat) (op : BerthOp) : Option (Nat × Nat) :=
  let b := (s.lquay l).pools
  let n := fun (p : Nat) (m : Bool) => s.lpar l (if m then .berthMem p else .berthSram p)
  (b.handles.filter (fun h => h.1 == owner && h.2.1 == work)).findSome? (fun h => (b.refusal n owner h.2.2 op).map (fun c => (h.2.2, c)))

/-- Reach the berths of a piece of work through the handles it holds: every access is checked first (R312). A failed check performs
nothing, is recorded by BERTH_PTR with the handle, the offset, the owner and the check, counts against the unit, and the flag is false;
its caller ends the operation as R312 says for the owner. DESIGN CHOICE (log 110): so does an access that meets a line of the memory tier which
fails its check value (R328), with a signature of class LINE_CHECK. A read reaches the lines of the memory tier as line requests of the quay's
own channel port (R307), and those of the SRAM tier as words of the staging SRAM, which deliver poison where they cannot be corrected (R336): the
flag is false then too. -/
def State.berthUse (s : State) (l : Nat) (owner : Owner) (work : Nat) (op : BerthOp) : State × Bool :=
  let b := (s.lquay l).pools
  let mine := b.live.filter (fun x => x.owner == owner && x.work == work)
  let reads := match op with
    | .access .. => true
    | _ => false
  let rot := if !reads then none else (mine.filter (·.mem)).findSome? (fun x =>
    let a := s.berthAddr l x.pool x.idx
    ((List.range x.crcs.length).find? (fun i => !s.lineOk l (a + 128 * i) || lineCrc (s.readLine l (a + 128 * i)) != s.readB l (a + berthSize x.pool + 4 * i) 4)).map (fun i =>
      (a + 128 * i, s.readB l (a + berthSize x.pool + 4 * i) 4)))
  match s.berthBad l owner work op with
  | none => match rot with
    | none =>
      if !reads then (s, true) else
      let s1 := foldS (mine.filter (·.mem)) (fun x s => foldS (List.range x.crcs.length) (fun i s => s.issueRead l (s.berthAddr l x.pool x.idx + 128 * i) .own) s) s
      (mine.filter (fun x => !x.mem)).foldl (fun (a : State × Bool) x =>
        let y := a.1.sramRead l 0 x.handle
        (y.1, a.2 && !y.2)) (s1, true)
    | some a => (s.sigL l { cls := 0x01, unit := 0xB, addr := a.1, expected := a.2, observed := lineCrc (s.readLine l a.1) }, false)
  | some (h, c) =>
    let off := match op with
      | .access off _ => off
      | _ => 0
    (s.suspectL l owner.unit { cls := 0x0D, unit := owner.unit, addr := h, named := some (pack [(32, h), (20, off), (8, owner.code), (4, c)]) }, false)

/-- COUNT of a berth follows its users: new ones share it, those that are done release it one after the other (R311). -/
def State.berthFollow (s : State) (l : Nat) (b : Berth) : State :=
  let n := (s.berthUsers l b.owner b.work).getD b.count
  if n == b.count then s else
  let u := s.berthUse l b.owner b.work (if b.count < n then .share (n - b.count) else .release)
  if !u.2 then u.1
  else u.1.modLquay l (fun q => { q with pools := { q.pools with live := mapIf (fun x => x.handle == b.handle) (fun x => { x with count := n }) q.pools.live } })

/-- The users of each berth share and release it, and a berth without users is freed (R308, R311). A request of background salvage stays in
its queue while salvage has work left. -/
def State.berthSync (s : State) (l : Nat) : State :=
  let gone := fun (o : Owner) (w : Nat) => s.berthUsers l o w == some 0
  let idle := s.salv.isEmpty && s.job.displaced.isEmpty
  let s1 := s.berthFree l (fun b => gone b.owner b.work) (fun r => gone r.owner r.work && (r.owner != .background || idle))
  foldS (s1.lquay l).pools.live (fun b s => s.berthFollow l b) s1

/-- Take a memory-tier berth of a pool for a piece of work, and write lines into it (R58). -/
def State.berthSpill (s : State) (l pool : Nat) (owner : Owner) (work : Nat) (ls : List Line) : State :=
  let r := s.berthAlloc l pool owner work .mem
  if !r.2 then r.1 else
  r.1.berthPut l owner work ls

/-- Q_BERTH_STATp (R315): zero until the quay is enabled. -/
def State.berthStat (s : State) (p pool : Nat) : Nat :=
  let q := s.quay p
  if !q.enabled then 0 else
  let n := fun (m : Bool) => (q.pools.live.filter (fun x => x.pool == pool && x.mem == m && x.owner != .demand)).length
  let c := fun x => (s.param? p x).getD 0
  pack [(20, c (.berthMem pool) - n true), (10, c (.berthSram pool) - (if pool == 2 then 8 else 0) - n false), (2, q.pools.level.get 0 pool)]

end Sys2Proof.Machine
end

