-- ==== Sys2Proof/Machine/Coder.lean ====
section
/-! DEFINITION. The convoy code (03): where pieces lie (R66 to R70), the generator (R72), the lighter header and its
acknowledgement (R76, R83), line compression (R77 to R79). -/

namespace Sys2Proof.Machine

/-! ## Placement -/

/-- Data index and stripe of data unit `d` at position `x` (R67). -/
def Convoy.didx (c : Convoy) (d : Nat) : Nat := d % max c.k 1
def Convoy.stripeAt (c : Convoy) (x d : Nat) : Nat :=
  c.n * (d / max c.k 1) + (x + c.n - c.didx d % max c.n 1) % max c.n 1

/-- Position of data index `i`, and of parity `j`, of stripe `s` (R67). -/
def Convoy.dataPos (c : Convoy) (s i : Nat) : Nat := (s + i) % max c.n 1
def Convoy.parPos (c : Convoy) (s j : Nat) : Nat := (s + c.k + j) % max c.n 1

/-- The data unit of data index `i`, and the parity unit of parity `j`, of stripe `s` (R68, R69). -/
def Convoy.dataUnit (c : Convoy) (s i : Nat) : Nat := c.k * (s / max c.n 1) + i
def Convoy.parUnit (c : Convoy) (s j : Nat) : Nat := c.m * (s / max c.n 1) + j

/-- Whether data index `i` of stripe `s` is present on logical quay `q` (R69). -/
def Convoy.present (c : Convoy) (q s i : Nat) : Bool := decide (c.dataUnit s i < c.d.getD q 0)

/-- The data indices present. -/
def Convoy.presentIdx (c : Convoy) (q s : Nat) : List Nat := (List.range c.k).filter (c.present q s)

/-- Parity units of a quay (R64). -/
def Convoy.parUnits (c : Convoy) (q : Nat) : Nat := c.m * cdiv (c.d.getD q 0) (max c.k 1)

/-- Stripes of a quay. -/
def Convoy.stripes (c : Convoy) (q : Nat) : Nat := c.n * cdiv (c.d.getD q 0) (max c.k 1)

/-- The stripe and parity index of parity unit `e` at position `x`. -/
def Convoy.parStripe (c : Convoy) (x e : Nat) : Nat × Nat :=
  let j := e % max c.m 1
  (c.n * (e / max c.m 1) + (x + 2 * c.n - (c.k + j) % max c.n 1) % max c.n 1, j)

/-- The address of line `ln` of parity unit `e` (R68). -/
def Convoy.parLine (c : Convoy) (q e ln : Nat) : Nat := c.par.getD q 0 * 4096 + e * 4096 + ln * 128

/-- The generator g(j, i) (R72). -/
def gen (j i : Nat) : Nat := gfMul (0x20 ^^^ i) (gfInv ((0x20 + j) ^^^ i))

/-- The protected regions of a quay in ascending BASE (R66, R105). -/
def Quay.prot (q : Quay) : List Region := sortBy (fun a b => decide (a.base ≤ b.base)) (q.regions.filter (fun r => r.kind == 1))

/-- Unit number of an address among regions, counted from `n` (R105). -/
def unitIn : List Region → Nat → Nat → Option Nat
  | [], _, _ => none
  | r :: t, n, a => if r.base * 4096 ≤ a && a < (r.base + r.size) * 4096 then some (n + (a / 4096 - r.base))
    else unitIn t (n + r.size) a

/-- The address of unit `u` among regions. -/
def unitAddr : List Region → Nat → Option Nat
  | [], _ => none
  | r :: t, u => if u < r.size then some ((r.base + u) * 4096) else unitAddr t (u - r.size)

/-- Unit number u of an address on a quay, over all its protected regions (R105). -/
def Quay.unitOf (q : Quay) (addr : Nat) : Option Nat := unitIn q.prot 0 addr

/-- The start of unit u. -/
def Quay.addrOfUnit (q : Quay) (u : Nat) : Option Nat := unitAddr q.prot u

/-- Data unit d of an address within its convoy (R66). -/
def Quay.dOf (q : Quay) (c addr : Nat) : Option Nat := unitIn (q.prot.filter (fun r => r.convoy == c)) 0 addr

/-- The start of data unit d of convoy c. -/
def Quay.addrOfD (q : Quay) (c d : Nat) : Option Nat := unitAddr (q.prot.filter (fun r => r.convoy == c)) d

/-- The reserved areas of a port position as (start, bytes): parity, check shadow and step log (R70), the record area (R133)
and the hold's areas (R319). -/
def State.reservedAreas (s : State) (l : Nat) : List (Nat × Nat) :=
  s.convoys.flatMap (fun c => [(c.par.getD l 0 * 4096, c.parUnits l * 4096),
    (c.sh.getD l 0 * 4096, (c.d.getD l 0 + c.parUnits l) * 128)]) ++
  [(s.lpar l .logBase * 4096, s.lpar l .logSize * 4096)] ++
  (if l == 0 && (s.param? s.q0 .recBase).isSome then [(s.hpar .recBase, 37 * 4096)] else []) ++
  (if s.lpar l .holdSlots == 0 then [] else
    [(s.lpar l .holdBase * 4096, s.lpar l .holdSlots * (65536 + 2048)),
     (s.lpar l .holdFrameBase * 4096, s.lpar l .holdFrames * 67584),
     (s.lpar l .holdMapBase * 4096, s.lpar l .holdSlots * 8)])

/-- Whether an address lies in a reserved area: on a learner, whose areas they are (R70). -/
def State.inReserved (s : State) (l addr : Nat) : Bool :=
  (s.reservedAreas l).any (fun r => r.1 ≤ addr && addr < r.1 + r.2)

/-- The check-shadow address of line `ln` of shadow line `x` (R96). -/
def Convoy.shadowAddr (c : Convoy) (q x : Nat) : Nat := c.sh.getD q 0 * 4096 + x * 128

/-! ## Line compression (R78, R79) -/

/-- The 64 lanes of 16 bits of a delta. -/
def lanes (d : Line) : List Nat := (List.range 64).map (fun i => fld d.toNat (16 * i + 15) (16 * i))

/-- Bits needed for a value. -/
def bitLen (v : Nat) : Nat := if v = 0 then 0 else Nat.log2 v + 1

/-- A compressed line: code, lane width, payload bytes, payload. -/
structure Comp where
  code : Nat
  b    : Nat
  plen : Nat
  pay  : Nat
  deriving DecidableEq, Repr

/-- Compress a delta: the smallest form, ties to the lower code (R79). -/
def compress (d : Line) : Comp :=
  let ls := lanes d
  let b := bitLen (ls.foldl (fun a v => a ||| v) 0)
  let c := (ls.filter (· ≠ 0)).length
  if d = 0 then { code := 1, b := 0, plen := 0, pay := 0 }
  else
    let s2 := 8 + 2 * c
    let s3 := if b ≤ 15 then 8 * b else 1000
    if 128 ≤ s2 && 128 ≤ s3 then { code := 0, b := 0, plen := 128, pay := d.toNat }
    else if s2 ≤ s3 then
      { code := 2, b := 0, plen := s2,
        pay := pack (ls.map (fun v => (1, b2n (v ≠ 0)))) + pack ((ls.filter (· ≠ 0)).map (fun v => (16, v))) <<< 64 }
    else { code := 3, b := b, plen := s3, pay := pack (ls.map (fun v => (b, v))) }

/-- Lanes from a bitmap and the values of the lanes set. -/
def expandLanes : Nat → Nat → Nat → List Nat
  | 0, _, _ => []
  | n + 1, bm, vals => if bm % 2 = 1 then vals % 65536 :: expandLanes n (bm / 2) (vals / 65536)
    else 0 :: expandLanes n (bm / 2) vals

/-- The line of 64 lanes. -/
def ofLanes (ls : List Nat) : Line := BitVec.ofNat 1024 (pack (ls.map (fun v => (16, v))))

/-- Decompress a line; none for a form R78 does not give. -/
def decompress (c : Comp) : Option Line :=
  match c.code with
  | 0 => if c.plen == 128 && c.b == 0 then some (BitVec.ofNat 1024 c.pay) else none
  | 1 => if c.plen == 0 && c.b == 0 then some 0 else none
  | 2 =>
    if c.b == 0 && c.plen == 8 + 2 * popCount 64 (c.pay % 2 ^ 64) then
      some (ofLanes (expandLanes 64 (c.pay % 2 ^ 64) (c.pay >>> 64))) else none
  | 3 => if 1 ≤ c.b && c.b ≤ 15 && c.plen == 8 * c.b then some (ofLanes (unpack (List.replicate 64 c.b) c.pay)) else none
  | _ => none

/-! ## The lighter packet (R76, R77) -/

/-- The fields of a lighter header (R76). -/
structure LHdr where
  type   : Nat
  resend : Nat
  undo   : Nat
  relief : Nat
  didx   : Nat
  convoy : Nat
  quay   : Nat
  src    : Nat
  job    : Nat
  epoch  : Nat
  step   : Nat
  stripe : Nat
  lseq   : Nat
  mask   : Nat
  bodyLen : Nat
  dpos   : Nat
  j      : Nat
  deriving DecidableEq, Repr

/-- Widths of the header's fields from bit 0, reserved ones included (R76). -/
def lhWidths : List Nat := [4, 1, 1, 1, 1, 5, 3, 4, 4, 20, 4, 16, 32, 48, 32, 32, 32, 13, 3, 6, 2, 24]

/-- The 36 B of a header before HCRC. -/
def LHdr.bits (h : LHdr) : Nat :=
  pack (lhWidths.zip [h.type, h.resend, h.undo, h.relief, 0, h.didx, 0, h.convoy, h.quay, h.src, 0, h.job, h.epoch, h.step,
    h.stripe, h.lseq, h.mask, h.bodyLen, 0, h.dpos, h.j, 0])

/-- The 40 B header with its HCRC. -/
def LHdr.enc (h : LHdr) : Nat := withCrc 40 h.bits

/-- Read a header. -/
def LHdr.dec (v : Nat) : LHdr :=
  { type := fld v 3 0, resend := fld v 4 4, undo := fld v 5 5, relief := fld v 6 6, didx := fld v 12 8,
    convoy := fld v 19 16, quay := fld v 23 20, src := fld v 43 24, job := fld v 63 48, epoch := fld v 95 64,
    step := fld v 143 96, stripe := fld v 175 144, lseq := fld v 207 176, mask := fld v 239 208,
    bodyLen := fld v 252 240, dpos := fld v 261 256, j := fld v 263 262 }

/-- The body of a delta lighter (R77): a descriptor for each line in ascending order, then the payloads. -/
def bodyDescs : List LLine → Nat
  | [] => 0
  | x :: t =>
    let c := compress x.delta
    pack [(2, c.code), (4, c.b), (2, 0), (8, c.plen), (16, 0), (32, lineCrc x.delta)] + bodyDescs t <<< 64

def bodyPays : List LLine → Nat
  | [] => 0
  | x :: t => let c := compress x.delta; c.pay + bodyPays t <<< (8 * c.plen)

/-- The lines of a lighter in ascending order. -/
def sortLines (ls : List LLine) : List LLine := sortBy (fun a b => decide (a.l ≤ b.l)) ls

/-- Body and its length. -/
def encBody (ls : List LLine) : Nat × Nat :=
  let xs := sortLines ls
  (bodyDescs xs + bodyPays xs <<< (64 * xs.length), 8 * xs.length + (xs.map (fun x => (compress x.delta).plen)).foldl (· + ·) 0)

/-- LINE_MASK of a lighter. -/
def lineMask (ls : List LLine) : Nat := ls.foldl (fun a x => a ||| 2 ^ x.l) 0

/-- The lines a body gives: line numbers from the mask, descriptors, payloads at byte `off`; none when a reserved bit is set,
a form is wrong or a DCRC fails (R80). -/
def decLines (body : Nat) : List Nat → Nat → Nat → Option (List (Nat × Line))
  | [], _, _ => some []
  | l :: t, i, off =>
    let d := fld body (64 * i + 63) (64 * i)
    let c : Comp := { code := fld d 1 0, b := fld d 5 2, plen := fld d 15 8, pay := fld body (8 * (off + fld d 15 8) - 1) (8 * off) }
    match decompress { c with pay := if c.plen = 0 then 0 else c.pay }, decLines body t (i + 1) (off + c.plen) with
    | some x, some r => if fld d 7 6 == 0 && fld d 31 16 == 0 && lineCrc x == fld d 63 32 then some ((l, x) :: r) else none
    | _, _ => none

/-- The line numbers of a mask. -/
def maskLines (m : Nat) : List Nat := (List.range 32).filter (fun i => m.testBit i)

/-- The lines of a lighter body (R80). A body with a reserved bit set in a descriptor, or with a CODE, B or PLEN that spells no line, has none, and
CHECK_FAIL answers it as it answers a DCRC that fails: DESIGN CHOICE, safe (log 111). -/
def decBody (mask body : Nat) : Option (List (Nat × Line)) :=
  decLines body (maskLines mask) 0 (8 * (maskLines mask).length)

/-! ## Lighter acknowledgement (R83) -/

/-- The fields of an acknowledgement. -/
structure LAck where
  type   : Nat
  status : Nat
  quay   : Nat
  holder : Nat
  job    : Nat
  epoch  : Nat
  lseq   : Nat
  deriving DecidableEq, Repr

def laWidths : List Nat := [4, 4, 4, 4, 20, 12, 16, 32, 32, 96]

def LAck.bits (a : LAck) : Nat :=
  pack (laWidths.zip [a.type, a.status, a.quay, 0, a.holder, 0, a.job, a.epoch, a.lseq, 0])

/-- The 32 B acknowledgement with HCRC. -/
def LAck.enc (a : LAck) : Nat := withCrc 32 a.bits

def LAck.dec (v : Nat) : LAck :=
  { type := fld v 3 0, status := fld v 7 4, quay := fld v 11 8, holder := fld v 35 16, job := fld v 63 48,
    epoch := fld v 95 64, lseq := fld v 127 96 }

/-- Send an acknowledgement to a sender's device (VC 2). -/
def State.sendAck (s : State) (l dst job status lseq : Nat) : State :=
  s.sendPkt l 2 dst l 32 (LAck.enc { type := 8, status := status, quay := l, holder := s.ident.device, job := job,
                                     epoch := s.job.epoch, lseq := lseq })

end Sys2Proof.Machine
end

