-- ==== Sys2Proof/Machine/Hold.lean ====
section
/-! DEFINITION. The hold (R317 to R326): slots, frames, the migration table, promotion, victims and layer-order prefetch. -/

namespace Sys2Proof.Machine

/-- Page states (R321). -/
def pgFlash : Nat := 0
def pgLoading : Nat := 1
def pgClean : Nat := 2
def pgDirty : Nat := 3
def pgWriting : Nat := 4

/-- The 8 B of a migration-table entry (R321). -/
def PageEnt.bits (e : PageEnt) : Nat :=
  pack [(3, e.st), (1, b2n (e.pin || e.want)), (1, b2n e.pf), (1, b2n e.redirty), (2, 0), (3, e.rcount), (21, 0), (24, e.frame), (8, 0)]

/-- Start of the flash range and its slots in bytes (R317). -/
def State.holdStart (s : State) (l : Nat) : Nat := s.lpar l .holdBase * 4096
def State.holdEnd (s : State) (l : Nat) : Nat := s.holdStart l + s.lpar l .holdSlots * 65536

/-- Slots the overflow step log takes (R319). -/
def State.ovfSlots (s : State) (l : Nat) : Nat := cdiv (s.lpar l .logOvfSize) 16

/-- Convoys whose parity area on a position lies in the flash range: cold parity (R319). -/
def State.coldConvoys (s : State) (l : Nat) : List Convoy :=
  s.convoys.filter (fun c => let a := c.par.getD l 0 * 4096
    decide (0 < c.parUnits l) && decide (s.holdStart l ≤ a) && decide (a < s.holdEnd l))

/-- The slots of cold parity as (first, end), ascending. -/
def State.coldSlots (s : State) (l : Nat) : List (Nat × Nat) :=
  sortBy (fun a b => decide (a.1 ≤ b.1)) ((s.coldConvoys l).map (fun c =>
    let a := c.par.getD l 0 * 4096 - s.holdStart l
    (a / 65536, cdiv (a + c.parUnits l * 4096) 65536)))

/-- Slot of the `n`th page of the hold-backed regions: after the overflow log, passing over cold parity (R319, log 19). -/
def slotSkip : List (Nat × Nat) → Nat → Nat
  | [], i => i
  | (a, b) :: t, i => slotSkip t (if a ≤ i then i + (b - a) else i)

/-- Hold-backed regions of a quay in ascending address. -/
def Quay.heldRegions (q : Quay) : List Region := sortBy (fun a b => decide (a.base ≤ b.base)) (q.regions.filter (fun r => r.kind == 6))

/-- Pages of the hold-backed regions before an address. -/
def pageIn : List Region → Nat → Nat → Option Nat
  | [], _, _ => none
  | r :: t, n, a => if r.base * 4096 ≤ a && a < (r.base + r.size) * 4096 then some (n + (a - r.base * 4096) / 65536)
    else pageIn t (n + r.size / 16) a

/-- The page of an address: of a hold-backed region, or of cold parity. -/
def State.pageOf (s : State) (l addr : Nat) : Option Nat :=
  if s.lpar l .holdSlots == 0 then none else
  match pageIn (s.lquay l).heldRegions 0 addr with
  | some n => some (slotSkip (s.coldSlots l) (s.ovfSlots l + n))
  | none =>
    if s.holdStart l ≤ addr && addr < s.holdEnd l && decide (s.ovfSlots l * 65536 ≤ addr - s.holdStart l) then
      some ((addr - s.holdStart l) / 65536) else none

/-- Where line `i` of a slot, of a frame, and their check values lie (R317). -/
def State.slotLine (s : State) (l pg i : Nat) : Nat := s.holdStart l + 65536 * pg + 128 * i
def State.slotCheck (s : State) (l pg i : Nat) : Nat := s.holdEnd l + 2048 * pg + 4 * i
def State.frameLine (s : State) (l f i : Nat) : Nat := s.lpar l .holdFrameBase * 4096 + 67584 * f + 128 * i
def State.frameCheck (s : State) (l f i : Nat) : Nat := s.lpar l .holdFrameBase * 4096 + 67584 * f + 65536 + 4 * i

/-- A page's entry; set it, in the table and in memory, where it changes. -/
def State.page (s : State) (l pg : Nat) : PageEnt := (s.port l).pages.get {} pg
def State.setPage (s : State) (l pg : Nat) (e : PageEnt) : State :=
  if e == s.page l pg && (s.port l).pages.any (fun x => x.1 == pg) then s else
  (s.modPort l (fun p => { p with pages := p.pages.set pg e })).ownWrite l (s.lpar l .holdMapBase * 4096 + 8 * pg) 8 e.bits

/-- Whether a page has a frame with valid content. -/
def PageEnt.resident (e : PageEnt) : Bool := decide (2 ≤ e.st)

/-- Line within a page: a page of a hold-backed region is 64 KiB aligned, and a cold parity page starts where its slot does (R317, R319). -/
def State.pageLineNo (s : State) (l addr : Nat) : Nat :=
  (if (pageIn (s.lquay l).heldRegions 0 addr).isSome then addr else addr - s.holdStart l) % 65536 / 128

/-- Where the line at an address now lies: its frame when its page is resident, else its slot; the address itself outside
the hold. -/
def State.memLoc (s : State) (l addr : Nat) : Nat :=
  match s.pageOf l addr with
  | none => addr
  | some pg =>
    let e := s.page l pg
    (if e.resident then s.frameLine l e.frame (s.pageLineNo l addr) else s.slotLine l pg (s.pageLineNo l addr)) + addr % 128

/-- `n` bytes at an address, at most a page, where they now lie: those past the end of a page of the hold lie in another frame. -/
def State.readAt (s : State) (l addr n : Nat) : Nat :=
  let n1 := min n (65536 - addr % 65536)
  s.readB l (s.memLoc l addr) n1 + (if n1 == n then 0 else s.readB l (s.memLoc l (addr + n1)) (n - n1)) <<< (8 * n1)

/-- The check value kept for the line at an address of the hold. -/
def State.holdCheck (s : State) (l addr : Nat) : Nat :=
  match s.pageOf l addr with
  | none => 0
  | some pg =>
    let e := s.page l pg
    s.readB l (if e.resident then s.frameCheck l e.frame (s.pageLineNo l addr) else s.slotCheck l pg (s.pageLineNo l addr)) 4

/-! ## Frames (R323) -/

/-- The lowest free frame. -/
def PortSt.freeFrame (p : PortSt) (n : Nat) : Option Nat :=
  let used := (p.pages.filter (fun e => e.2.st != 0)).map (·.2.frame)
  if n ≤ used.length then none else (List.range (used.length + 1)).find? (fun f => !used.contains f)

/-- The clock sweep from a hand over `n` frames: the first page in state CLEAN or DIRTY, unpinned and not read since the
sweep passed; pages passed lose their mark. Two turns at most. -/
def sweep (p : PortSt) (frames : Nat) : Nat → Nat → List Nat → Option (Nat × Nat) × Nat × List Nat
  | 0, hand, recent => (none, hand, recent)
  | n + 1, hand, recent =>
    let nx := (hand + 1) % max frames 1
    match p.pages.find? (fun e => e.2.frame == hand && (e.2.st == pgClean || e.2.st == pgDirty) && !e.2.pin && !e.2.want) with
    | none => sweep p frames n nx recent
    | some e =>
      if recent.contains hand then sweep p frames n nx (recent.filter (· ≠ hand))
      else (some (e.1, hand), nx, recent)

/-- Start writing a dirty page back once it has its transfer berth: its 512 lines in ascending order, then its 16 check lines (R308,
R318, R322). -/
def State.writeBack (s0 : State) (l pg : Nat) : State :=
  let b := s0.berthWant l 4 .page pg 1
  if !b.2 then b.1 else
  let s := b.1
  let e := s.page l pg
  let s1 := foldS (List.range 512) (fun i s =>
    let a := s.frameLine l e.frame i
    s.issueWrite l (s.slotLine l pg i) fullMask (s.readLine l a) (!s.lineOk l a) (.page pg)) s
  let s2 := foldS (List.range 16) (fun i s =>
    s.issueWrite l (s.holdEnd l + 2048 * pg + 128 * i) fullMask (s.readLine l (s.frameCheck l e.frame 0 + 128 * i)) false (.page pg)) s1
  s2.setPage l pg { e with st := pgWriting, redirty := false }

/-- The pages being written back or about to be. -/
def State.goingBack (s : State) (l : Nat) : Nat :=
  ((s.port l).pages.filter (fun e => e.2.st == pgWriting ||
    (e.2.st == pgDirty && ((s.lquay l).pools.live.any (fun b => b.owner == .page && b.work == e.1) || (s.lquay l).pools.queue.any (fun b => b.owner == .page && b.work == e.1))))).length

/-- Claim a frame for a page: a free one, else a clean victim's; a dirty victim's write-back starts, one for each page that waits, and no frame is
free yet (R323). -/
def State.claimFrame (s : State) (l pg : Nat) : State × Option Nat :=
  let n := s.lpar l .holdFrames
  match (s.port l).freeFrame n with
  | some f => (s, some f)
  | none =>
    if (pg :: (s.lquay l).noFrame.filter (· ≠ pg)).length ≤ s.goingBack l then (s, none) else
    let r := sweep (s.port l) n (2 * n) (s.port l).hand (s.port l).recent
    let s1 := s.modPort l (fun p => { p with hand := r.2.1, recent := r.2.2 })
    match r.1 with
    | none => (s1, none)
    | some (pg, f) =>
      let e := s1.page l pg
      if e.st == pgClean then (s1.setPage l pg { e with st := pgFlash, frame := 0, pf := false, rcount := 0 }, some f)
      else (s1.writeBack l pg, none)

/-- Lines of a cold parity page that fail their check as it is loaded: their stripes are anchored again (R322). -/
def State.badParity (s : State) (l pg : Nat) : List Nat :=
  if !(s.coldSlots l).any (fun x => decide (x.1 ≤ pg) && decide (pg < x.2)) then [] else
  ((List.range 512).map (s.slotLine l pg)).zipIdx.filterMap (fun e =>
    if s.lineOk l e.1 && lineCrc (s.readLine l e.1) == s.readB l (s.slotCheck l pg e.2) 4 then none else some e.1)

/-- Promote a page from flash: claim a frame and a transfer berth, and load it (R322). A demand promotion that finds no frame waits and is
counted once; a prefetch (`pf`) stops, and so it does while a demand promotion waits for a frame (R323). -/
def State.promote (s : State) (l pg : Nat) (pf : Bool) : State :=
  let e := s.page l pg
  if e.st != pgFlash then s else
  let c := if pf && !(s.lquay l).noFrame.isEmpty then (s, none) else s.claimFrame l pg
  match c.2 with
  | none =>
    let at_ : CntAttr := { addr := some (s.slotLine l pg 0) }
    if pf then (c.1.countL l 0x25 1 at_).berthFreeWork l .page pg
    else if (s.lquay l).noFrame.contains pg then c.1
    else (c.1.countL l 0x24 1 at_).modLquay l (fun q => { q with noFrame := pg :: q.noFrame })
  | some f =>
    let b := c.1.berthWant l 4 .page pg 1
    if !b.2 then b.1 else
    let s1 := (b.1.modLquay l (fun q => { q with noFrame := q.noFrame.filter (· ≠ pg), badLoad := q.badLoad ++ s.badParity l pg })).setPage l pg { e with st := pgLoading, frame := f, pf := pf, redirty := false }
    let s2 := foldS (List.range 512) (fun i s =>
      let a := s.slotLine l pg i
      let x := s.readLine l a
      let ok := s.lineOk l a && lineCrc x == s.readB l (s.slotCheck l pg i) 4
      s.issueWrite l (s.frameLine l f i) fullMask x (!ok) (.page pg)) s1
    foldS (List.range 16) (fun i s =>
      s.issueWrite l (s.frameCheck l f 0 + 128 * i) fullMask (s.readLine l (s.holdEnd l + 2048 * pg + 128 * i)) false (.page pg)) s2

/-- Whether a write waits for a page, one is being applied to its frame, or the page is of a cold parity area that a salvage is rebuilding
(R323, R326). -/
def State.pageWanted (s : State) (l pg : Nat) : Bool :=
  let q := s.lquay l
  let f := s.frameLine l (s.page l pg).frame 0
  (s.coldConvoys l).any (fun c => s.salv.any (fun w => w.convoy == c.idx) && (s.pageOf l (c.par.getD l 0 * 4096)).any (fun a => decide (a ≤ pg) &&
    decide (pg < a + cdiv ((c.par.getD l 0 * 4096 - s.holdStart l) % 65536 + c.parUnits l * 4096) 65536))) ||
  q.mc.any (fun c => c.wr.isSome && decide (f ≤ c.addr) && decide (c.addr < f + 65536) && c.use != .page pg) || q.ops.any (fun o => o.stage == .waitPage && s.pageOf l o.addr == some pg) || q.conv.heldL.any (fun x => x.why == .page) ||
    q.pageWait.any (fun x => s.pageOf l x.1 == some pg)

/-- Transfers that waited for their berth start, then demand promotions that waited for a frame, first come, first served; pages that no write or
rebuild holds are unpinned (R308, R323). -/
def State.pagesGo (s : State) (l : Nat) : State :=
  let s1 := foldS ((s.lquay l).pools.live.filter (fun b => b.owner == .page)) (fun b s =>
    let e := s.page l b.work
    if e.st == pgFlash then s.promote l b.work (!s.pageWanted l b.work && !(s.lquay l).noFrame.contains b.work)
    else if e.st == pgDirty then s.writeBack l b.work else s) s
  let s2 := foldS (s1.lquay l).noFrame.reverse (fun pg s => if (s.page l pg).st == pgFlash then s.promote l pg false
    else s.modLquay l (fun q => { q with noFrame := q.noFrame.filter (· ≠ pg) })) s1
  foldS ((s2.port l).pages.filter (fun e => e.2.want && e.2.resident && !s2.pageWanted l e.1)) (fun e s => s.setPage l e.1 { e.2 with want := false }) s2

/-- Loads and write-backs whose channel writes are all acknowledged end (R322). A transfer whose berth fails its check is repeated from the start (R312), a write-back so often that its quay reports a
fatal error (R377). First the transfers that waited start. -/
def State.pagesDone (s0 : State) (l : Nat) : State :=
  let s := s0.pagesGo l
  foldS ((s.port l).pages.filter (fun e => e.2.st == pgLoading || e.2.st == pgWriting)) (fun e s =>
    if (s.lquay l).mc.any (fun c => c.use == .page e.1) then s else
    let u := s.berthUse l .page e.1 (.access 0 65536)
    let s1 := u.1.berthFreeWork l .page e.1
    let tries := fun (t : Tbl Nat Nat → Tbl Nat Nat) (s : State) => s.modLquay l (fun q => { q with pageTries := t q.pageTries })
    let s1 := if u.2 then tries (fun t => t.del e.1) s1 else s1
    if !u.2 then
      if e.2.st == pgLoading then (s1.setPage l e.1 { e.2 with st := pgFlash, frame := 0, pf := false }).promote l e.1 e.2.pf else
      let n := (s1.lquay l).pageTries.get 0 e.1
      let r := s1.restart ((s1.phys l).getD 0) 8 e.1 n
      let s2 := (tries (fun t => t.set e.1 (n + 1)) r.1).setPage l e.1 { e.2 with st := pgDirty, redirty := false }
      if r.2 then s2.fatalL l else s2
    else if e.2.st == pgLoading then s1.setPage l e.1 { e.2 with st := pgClean, rcount := 0 }
    else if e.2.redirty then s1.setPage l e.1 { e.2 with st := pgDirty, redirty := false }
    else s1.setPage l e.1 { e.2 with st := pgFlash, frame := 0, pf := false, rcount := 0 }) s

/-! ## Layer-order prefetch (R325) -/

/-- Pages of a layer on a position, in ascending page order. -/
def State.layerPages (s : State) (l : Nat) (rs : List (Nat × Nat × Nat × Nat)) : List Nat :=
  sortBy (fun a b => decide (a ≤ b)) ((rs.filter (fun r => r.2.1 == l)).flatMap (fun r =>
    (List.range r.2.2.2).filterMap (fun i => s.pageOf l ((s.lquay l).region r.1 |>.base |> fun b => b * 4096 + 65536 * (r.2.2.1 + i)))))

/-- The layers C to C + ahead, the last wrapping to the first in a cyclic order. -/
def windowLayers (o : HoldOrder) (c ahead : Nat) : List Nat :=
  let n := o.layers.length
  (List.range (ahead + 1)).filterMap (fun i =>
    if c + i < n then some (c + i) else if o.cyclic && decide (0 < n) then some ((c + i) % n) else none)

/-- A read of a hold-backed page moves the layer cursor: the pages of the layers ahead are pinned and prefetched, as far as frames go, then those of
layers outside the window are unpinned (R325). -/
def State.cursorMove (s : State) (l pg : Nat) : State :=
  match s.hold with
  | none => s
  | some o =>
    let n := o.layers.length
    match (List.range n).find? (fun i => (s.layerPages l (o.layers.getD i [])).contains pg) with
    | none => s
    | some i =>
      let move := match (s.port l).cursor with
        | none => true
        | some c => decide (c < i) || (o.cyclic && decide (2 * i + n < 2 * c))
      if !move then s else
      let ahead := s.lpar l .holdAhead
      let win := windowLayers o i ahead
      let keep := win.flatMap (fun x => s.layerPages l (o.layers.getD x []))
      let s1 := s.modPort l (fun p => { p with cursor := some i })
      let s2 := (((win.drop 1).flatMap (fun x => s.layerPages l (o.layers.getD x []))).foldl (fun (x : State × Bool) pg =>
        let s' := if x.2 then x.1.promote l pg true else x.1
        let e := s'.page l pg
        (s'.setPage l pg { e with pin := true },
         x.2 && (e.st != pgFlash || (s'.lquay l).pools.queue.any (fun r => r.owner == .page && r.work == pg)))) (s1, true)).1
      foldS ((s2.port l).pages.filter (fun e => e.2.pin && !keep.contains e.1)) (fun e s => s.setPage l e.1 { e.2 with pin := false }) s2

/-- A read of a line of the hold (R322): where to read it. -/
def State.holdRead (s : State) (l addr : Nat) (move : Bool) : State × Nat :=
  match s.pageOf l addr with
  | none => (s, addr)
  | some pg =>
    let e := s.page l pg
    let s1 := if e.resident then
        (if e.pf then s.setPage l pg { e with pf := false } else s).modPort l (fun p =>
          { p with recent := if p.recent.contains e.frame then p.recent else e.frame :: p.recent })
      else
        let n := min (e.rcount + 1) 7
        let s' := s.setPage l pg { e with rcount := n }
        if e.st == pgFlash && decide (s.lpar l .holdPromote ≤ n) then s'.promote l pg false else s'
    let a := s1.memLoc l addr
    (if move then s1.cursorMove l pg else s1, a)

/-- Whether a write of a line of the hold may go now; a page in flash is promoted first (R322), and pinned for the write that waits
(R323). -/
def State.holdReady (s : State) (l addr : Nat) : State × Bool :=
  match s.pageOf l addr with
  | none => (s, true)
  | some pg =>
    let s1 := s.promote l pg false
    let e := s1.page l pg
    (if e.st == pgLoading && !e.want then s1.setPage l pg { e with want := true } else s1, e.resident)

/-- A write of a line is about to go to the frame: the page becomes dirty, or dirty again, is pinned while the write is applied, and the check
value of the new line is written (R322, R323). -/
def State.holdDirty (s : State) (l addr crc : Nat) : State :=
  match s.pageOf l addr with
  | none => s
  | some pg =>
    let e := s.page l pg
    let e1 := { e with want := true }
    let s1 := if e.st == pgClean then s.setPage l pg { e1 with st := pgDirty }
      else if e.st == pgWriting then s.setPage l pg { e1 with redirty := true }
      else if e.st == pgFlash then s else s.setPage l pg e1
    if e.st == pgFlash then s1 else s1.ownWrite l (s.frameCheck l e.frame (s.pageLineNo l addr)) 4 crc

/-- Write a whole line where it lives: memory, or the frame of its page, which is promoted (rebuilds and anchorings); it waits until the page is
loaded (R322). -/
def State.putLine (s : State) (l addr : Nat) (x : Line) (use : McUse) : State :=
  match s.pageOf l addr with
  | none => s.issueWrite l addr fullMask x false use
  | some pg =>
    let s1 := s.promote l pg false
    let e := s1.page l pg
    if !e.resident then (if e.st == pgLoading then s1.setPage l pg { e with want := true } else s1).modLquay l (fun q => { q with pageWait := q.pageWait ++ [(addr, x, use)] })
    else (s1.issueWrite l (s1.frameLine l e.frame (s1.pageLineNo l addr)) fullMask x false use).holdDirty l addr (lineCrc x)

/-- Rebuilt lines that waited for a frame are tried again. -/
def State.pageWaitGo (s : State) (l : Nat) : State :=
  foldS (s.lquay l).pageWait (fun x s => s.putLine l x.1 x.2.1 x.2.2) (s.modLquay l (fun q => { q with pageWait := [] }))

/-- A helper, an anchoring or an audit reads a line of the hold as any reader does: the read counts, may promote the page, and clears PF (R322). -/
def State.holdTouch (s : State) (l addr : Nat) : State := (s.holdRead l addr false).1

/-- Read a line where it lives. -/
def State.getLine (s : State) (l addr : Nat) : Line := s.readLine l (s.memLoc l addr)

/-- Whether it reads well: without poison or error, and in the hold with its check value. -/
def State.getOk (s : State) (l addr : Nat) : Bool :=
  s.lineOk l (s.memLoc l addr) && ((s.pageOf l addr).isNone || lineCrc (s.getLine l addr) == s.holdCheck l addr)

/-- A relief quay takes the migration table as it finds it (R326). -/
def State.holdRelief (s : State) (l : Nat) : State :=
  foldS (s.port l).pages (fun e s => s.setPage l e.1
    { e.2 with pin := false, want := false, st := if e.2.st == pgLoading then pgFlash else if e.2.st == pgWriting then pgDirty else e.2.st })
    (s.modPort l (fun p => { p with cursor := none }))

end Sys2Proof.Machine
end

