-- ==== Sys2Proof/Machine/Log.lean ====
section
/-! DEFINITION. The step log of a port position (R102 to R110) and the check shadow (R96, R330). -/

namespace Sys2Proof.Machine

/-! ## The check shadow (R96, R330) -/

/-- A shadow line: from the combiner, else from memory. -/
def State.shadowLine (s : State) (l a : Nat) : Line :=
  match (s.lquay l).shadow.find? (fun e => e.1 == a) with
  | some e => e.2
  | none => s.readLine l a

/-- The entry of line `ln` in the shadow line at `a`. -/
def State.shadowCrc (s : State) (l a ln : Nat) : Nat := byt (s.shadowLine l a).toNat (4 * ln + 3) (4 * ln)

/-- Write back what the combiner holds of the shadow line at `a`, and keep it (R330). -/
def State.shadowFlush (s : State) (l a : Nat) : State :=
  match (s.lquay l).shadow.find? (fun e => e.1 == a) with
  | some e => s.ownWrite l a 128 e.2.toNat
  | none => s

/-- Hold the shadow line at `a` in the combiner as the one last used; with more than 64 the least recently used is written back (R330). -/
def State.shadowKeep (s : State) (l a : Nat) (v : Line) : State :=
  let sh := (a, v) :: (s.lquay l).shadow.filter (fun e => e.1 != a)
  let s1 := s.modLquay l (fun q => { q with shadow := sh.take 64 })
  foldS (sh.drop 64) (fun e s => s.ownWrite l e.1 128 e.2.toNat) s1

/-- Set the entry of line `ln` in the shadow line at `a` (R330). -/
def State.shadowPut (s : State) (l a ln crc : Nat) : State :=
  s.shadowKeep l a (BitVec.ofNat 1024 (setFld (s.shadowLine l a).toNat (32 * ln + 31) (32 * ln) crc))

/-- A read of a shadow line brings it into the combiner (R330). -/
def State.shadowTouch (s : State) (l a : Nat) : State := s.shadowKeep l a (s.shadowLine l a)

/-- Write every line of the combiner back. -/
def State.shadowFlushAll (s : State) (l : Nat) : State :=
  foldS (s.lquay l).shadow (fun e s => s.ownWrite l e.1 128 e.2.toNat) s

/-- Where the shadow line of a data unit's address lies: convoy index and address. -/
def State.dataShadow (s : State) (l addr : Nat) : Option Nat :=
  match s.regionOf l addr with
  | none => none
  | some r => ((s.lquay l).dOf r.convoy addr).map (fun d => (s.convoy r.convoy).shadowAddr l d)

/-- An access to a protected data line brings its shadow line into the combiner (R330). -/
def State.shadowData (s : State) (l addr : Nat) : State :=
  match s.dataShadow l addr with
  | some sh => s.shadowTouch l sh
  | none => s

/-- Where the shadow line of parity unit `e` lies. -/
def Convoy.parShadow (c : Convoy) (l e : Nat) : Nat := c.shadowAddr l (c.d.getD l 0 + e)

/-! ## Layout of the log area (R102) -/

/-- Start of the log area. -/
def State.logBase (s : State) (l : Nat) : Nat := s.lpar l .logBase * 4096

/-- Protected units U and parity lines P of a position. -/
def State.logU (s : State) (l : Nat) : Nat := (s.lquay l).protUnits
def State.logP (s : State) (l : Nat) : Nat := s.parityUnits l * 32

/-- Start of the ring. -/
def State.ringBase (s : State) (l : Nat) : Nat := s.logBase l + 4096 + 32 * s.logU l + 4 * cdiv (s.logP l) 8

/-- L, the log space: the ring and the overflow area in the hold. -/
def State.logSpace (s : State) (l : Nat) : Nat := s.ringBytes l + s.lpar l .logOvfSize * 4096

/-- The local address of a log offset: in the ring, else in the slots the overflow area takes at the start of the hold
(R319). -/
def State.logAddr (s : State) (l off : Nat) : Nat :=
  if off < s.ringBytes l then s.ringBase l + off else s.lpar l .holdBase * 4096 + (off - s.ringBytes l)

/-- Bytes in use between TAIL and HEAD. -/
def State.logUsed (s : State) (l : Nat) : Nat :=
  let g := (s.port l).log
  let sp := max (s.logSpace l) 1
  (g.head + sp - g.tail) % sp

/-- Close records of unreleased segments that were sent and have no undo record (R110). -/
def Log.toUndo (g : Log) : List (Nat × CloseRec) :=
  g.entries.filterMap (fun e =>
    match e.body with
    | .close c =>
      if c.ncopy ≠ 0 && c.undoOf.isNone && !g.entries.any (fun x => match x.body with
        | .close y => y.undoOf == some e.off
        | _ => false) then some (e.off, c) else none
    | _ => none)

/-- The control reserve (R110). -/
def State.logReserve (s : State) (l : Nat) : Nat :=
  4096 + 656 * (s.lquay l).conv.opened.length + 400 * (s.port l).log.toUndo.length

/-- Whether a line entry or a parity snapshot of `n` bytes may be appended now (R110). -/
def State.logRoom (s : State) (l n : Nat) : Bool := s.logUsed l + n + s.logReserve l ≤ s.logSpace l

/-- The newest retained segment of a step: a cold flush may still pin an older one, of an aborted attempt (R140). -/
def Log.segOf (g : Log) (step : Nat) : Option Seg := g.segs.reverse.find? (fun x => x.step == step)

/-! ## Control block (R103) -/

/-- Write the control line. -/
def State.logCtl (s : State) (l : Nat) : State :=
  let g := (s.port l).log
  s.ownWrite l (s.logBase l) 128 (withCrc 128 (pack [(40, g.tail), (40, g.head)]))

/-- Write the segment table. -/
def State.logTable (s : State) (l : Nat) : State :=
  let g := (s.port l).log
  let row := fun i => match g.segs.find? (fun x => x.slot == i) with
    | some x => pack [(40, x.start), (48, x.step), (8, x.state)]
    | none => 0
  s.ownWrite l (s.logBase l + 128) 128 (withCrc 128 (pack ((List.range 4).map (fun i => (128, row i)))))

/-- Write the replay line of a slot. -/
def State.logReplay (s : State) (l : Nat) (x : Seg) : State :=
  s.ownWrite l (s.logBase l + 256 + 128 * x.slot) 128 (withCrc 128 (pack [(32, x.runit), (40, x.rbatch)]))

/-! ## Entries (R104 to R108, R124) -/

/-- The bytes of a line entry (R105). -/
def lineEntryBytes (unit ln convoy : Nat) (d : Line) (void : Bool) : Nat × Nat :=
  let c := compress d
  (8 + c.plen, pack [(4, 1), (2, c.code), (4, c.b), (8, c.plen), (5, ln), (1, b2n void), (28, unit), (4, convoy), (8, 0)] +
    c.pay <<< 64)

/-- The bytes of a close record or an undo close record (R106, R107). -/
def CloseRec.bytes (c : CloseRec) : Nat :=
  let loff := fun i => ((c.loffs.find? (fun e => e.1 == i)).map (·.2)).getD 0
  withCrc 256 (pack ([(4, if c.undoOf.isSome then 3 else 2), (4, c.ncopy), (4, c.convoy), (4, 0), (5, c.didx), (11, 0),
      (32, c.stripe), (28, c.unit), (4, 0), (32, c.lines.foldl (fun a i => a ||| 2 ^ i) 0), (16, c.bodyLen), (16, 0)] ++
    (List.range 4).map (fun j => (32, ((c.lseqs.getD j none).getD 0).toNat)) ++
    (List.range 4).map (fun j => (6, c.dpos.getD j 0)) ++
    [(8, 0), (40, c.undoOf.getD c.prev), (24, 0), (64, c.ctide), (32, 0)] ++
    (List.range 32).map (fun i => (40, loff i))))

/-- Length and bytes of an entry (R104 to R108, R124). R124 gives bytes [20:16] of a batch record to the offset of its close record and
bytes 16 to 143 to the 32 check values; the two overlap, and the offset goes to bytes [5:1] (log 17). -/
def LogBody.enc (step : Nat) : LogBody → Nat × Nat
  | .line u ln c d v => lineEntryBytes u ln c d v
  | .close c => (256, c.bytes)
  | .snap c j e ln old => (136, pack [(4, 4), (4, j), (4, c), (4, 0), (5, ln), (3, 0), (28, e), (12, 0)] + old.toNat <<< 64)
  | .batch n off crcs => (144, pack ([(4, 5), (4, 0), (40, off), (16, 0), (64, n)] ++ crcs.map (fun c => (32, c))))
  | .marker t => (32, pack [(4, 6), (12, 0), (48, step), (64, t)])

/-- Write bytes to the flash range, each line whole: what a line held beside them is written with them (R318, R320). -/
def State.writeWhole (s : State) (l addr n v : Nat) (use : McUse) : State :=
  foldS (linesOf addr n) (fun a s => let pt := linePart addr n v a; s.issueWrite l a fullMask (mergeLine pt.1 pt.2 (s.readLine l a)) false use) s

/-- Write bytes at a log offset, in the ring or as whole lines in the overflow area, across the end of the ring and of the space, and say how
many channel writes they are. -/
def State.logWrite (s : State) (l off n v : Nat) (use : McUse) : State × Nat :=
  let r := s.ringBytes l
  let sp := max (s.logSpace l) 1
  let o := off % sp
  let lim := if o < r then r else sp
  let n1 := min n (lim - o)
  let a1 := s.logAddr l o
  let put := fun (o : Nat) => if o < r then State.writeB else State.writeWhole
  let s1 := put o s l a1 n1 (v % 2 ^ (8 * n1)) use
  let c1 := (linesOf a1 n1).length
  if n1 < n then
    let a2 := s.logAddr l ((o + n1) % sp)
    (put ((o + n1) % sp) s1 l a2 (n - n1) (v >>> (8 * n1)) use, c1 + (linesOf a2 (n - n1)).length)
  else (s1, c1)

/-- Have the berth that stages `n` bytes at a log offset, where the overflow area takes some of them (R308, R320). -/
def State.ovfBerth (s : State) (l off n : Nat) : State × Bool :=
  if off % max (s.logSpace l) 1 + n ≤ s.ringBytes l then (s, true) else s.berthWant l 4 .ovf 0 1

/-- The channel writes that `n` bytes at a log offset are. -/
def State.logLines (s : State) (l off n : Nat) : Nat :=
  let sp := max (s.logSpace l) 1
  let o := off % sp
  let n1 := min n ((if o < s.ringBytes l then s.ringBytes l else sp) - o)
  (linesOf (s.logAddr l o) n1).length + (linesOf (s.logAddr l ((o + n1) % sp)) (n - n1)).length

/-- Write bytes at a log offset once the overflow area's berth stages them: those that wait for it go in order, and bytes for a place that
waits replace what waits there (R308, R312, R320). The number is that of the channel writes. -/
def State.logPut (s : State) (l off n v : Nat) (use : McUse) : State × Nat :=
  let b := s.ovfBerth l off n
  let u := if b.2 && decide (s.ringBytes l < off % max (s.logSpace l) 1 + n) then b.1.berthUse l .ovf 0 (.access 0 128) else b
  let q := (s.lquay l).conv.ovfPut
  if u.2 && !q.any (fun x => x.1 == off) && (q.isEmpty || decide (off % max (s.logSpace l) 1 + n ≤ s.ringBytes l)) then u.1.logWrite l off n v use
  else
    let q' := if q.any (fun x => x.1 == off) then
        mapIf (fun x => x.1 == off) (fun x => (off, x.2.1, (x.2.2.1 >>> (8 * n)) <<< (8 * n) ||| v % 2 ^ (8 * n), x.2.2.2)) q
      else q ++ [(off, n, v, use)]
    (u.1.modLquay l (fun q => { q with conv := { q.conv with ovfPut := q' } }), s.logLines l off n)

/-- Log bytes that waited for the overflow area's berth are written once it is there (R308, R320). -/
def State.ovfGo (s : State) (l : Nat) : State :=
  if (s.lquay l).conv.ovfPut.isEmpty || !s.hasBerth l .ovf 0 then s else
  foldS (s.lquay l).conv.ovfPut (fun x s => (s.logWrite l x.1 x.2.1 x.2.2.1 x.2.2.2).1) (s.modLquay l (fun q => { q with conv := { q.conv with ovfPut := [] } }))

/-- Bytes of a step appended on a position while its clearance was unknown count as speculative, whatever the entry (R115). -/
def State.addSpec (s : State) (l step n : Nat) : State :=
  let f := fun (r : StepRec) => { r with spec := r.spec.set l (r.spec.get 0 l + n) }
  { s with steps := { s.steps with recs := mapIf (fun r => r.no == step && r.clr == .unknown) f s.steps.recs } }

/-- Append an entry to the newest segment of a step at HEAD; `cont` runs once every channel write of it is acknowledged. -/
def State.logAppend (s : State) (l step : Nat) (body : LogBody) (cont : LogCont) : State :=
  let g := (s.port l).log
  let off := g.head
  let e := body.enc step
  let id := (s.lquay l).conv.nextId
  let w := (s.addSpec l step e.1).logPut l off e.1 e.2 (.log id)
  let x : LogEntry := { off := off, step := step, slot := ((g.segOf step).map (·.slot)).getD 4, len := e.1, body := body }
  let s1 := w.1.modPort l (fun p => { p with log := { p.log with head := (off + e.1) % max (s.logSpace l) 1, entries := p.log.entries ++ [x] } })
  let s2 := s1.modLquay l (fun q => { q with conv := { q.conv with nextId := id + 1,
                                                                   appends := q.conv.appends ++ [{ id := id, left := w.2, cont := cont }] } })
  (s2.logCtl l).countL l 0x03 e.1 { addr := some (s.logAddr l off) }

/-- Write an entry again in place: a void head (R29), or a close record with its LSEQs (R74). -/
def State.logRewrite (s : State) (l off : Nat) (f : LogBody → LogBody) : State :=
  match (s.port l).log.entries.find? (fun e => e.off == off) with
  | none => s
  | some e =>
    let b := f e.body
    let x := b.enc e.step
    let n := match b with
      | .line .. => 8
      | _ => x.1
    let s1 := s.modPort l (fun p => { p with log := { p.log with entries := mapIf (fun y => y.off == off) (fun y => { y with body := b }) p.log.entries } })
    (s1.logPut l off n (x.2 % 2 ^ (8 * n)) .own).1

/-- Set the unit index of a slot to a close record (R103). -/
def State.logIndex (s : State) (l slot unit off : Nat) : State :=
  s.ownWrite l (s.logBase l + 4096 + slot * 8 * s.logU l + 8 * unit) 8 off

/-- The number of a parity line among the position's parity areas, in convoy order (R102). -/
def State.parityLineNo (s : State) (l c e ln : Nat) : Nat :=
  ((s.convoys.filter (fun x => decide (x.idx < c))).foldl (fun a x => a + x.parUnits l) 0 + e) * 32 + ln

/-- Set a bit of a slot's snapshot map (R108). -/
def State.logSnapBit (s : State) (l slot n : Nat) : State :=
  let a := s.logBase l + 4096 + 32 * s.logU l + slot * cdiv (s.logP l) 8 + n / 8
  s.ownWrite l a 1 ((s.readB l a 1) ||| 2 ^ (n % 8))

/-- Whether the segment in a slot has a snapshot of a parity line (R108). -/
def Log.hasSnap (g : Log) (slot c e ln : Nat) : Bool :=
  g.entries.any (fun x => x.slot == slot && (match x.body with
    | .snap c' _ e' ln' _ => c' == c && e' == e && ln' == ln
    | _ => false))

/-! ## Segments (R103, R109, R140) -/

/-- A free slot of the control block. -/
def Log.freeSlot (g : Log) : Option Nat := (List.range 4).find? (fun i => !g.segs.any (fun x => x.slot == i))

/-- TAIL after a release: the start of the oldest segment left, or HEAD (R109). -/
def Log.retail (g : Log) : Log :=
  { g with tail := match g.segs with
    | [] => g.head
    | x :: _ => x.start }

/-- Clear what a slot's segment before left: the unit index, the snapshot map and the replay line, where 0 means none; the line is written with
its check value (R103). -/
def State.slotClear (s : State) (l slot : Nat) : State :=
  let b := s.logBase l
  let n := cdiv (s.logP l) 8
  ((s.zeroArea l (b + 4096 + slot * 8 * s.logU l) (8 * s.logU l)).zeroArea l (b + 4096 + 32 * s.logU l + slot * n) n).logReplay
    l { slot := slot, start := 0, step := 0, state := 0 }

/-- Open the segment of a step: a cleared slot, its step marker, the segment table (R103, R104). A fifth segment has no slot; the
caller has dropped the flush pins first (R140). -/
def State.segOpen (s : State) (l step : Nat) : State :=
  match (s.port l).log.freeSlot with
  | none => s
  | some i =>
    let x : Seg := { slot := i, start := (s.port l).log.head, step := step, state := 1 }
    let s1 := (s.slotClear l i).modPort l (fun p => { p with log := { p.log with segs := p.log.segs ++ [x] } })
    (s1.logAppend l step (.marker s.tide.now) .none).logTable l

/-- Change the segment in a slot. -/
def State.modSeg (s : State) (l slot : Nat) (f : Seg → Seg) : State :=
  s.modPort l (fun p => { p with log := { p.log with segs := mapIf (fun x => x.slot == slot) f p.log.segs } })

/-- Set the state of a step's newest segment: 2 closed, 3 aborting, 4 pinned. -/
def State.segState (s : State) (l step st : Nat) : State :=
  match (s.port l).log.segOf step with
  | none => s
  | some x => (s.modSeg l x.slot (fun x => { x with state := st })).logTable l

/-- Free the segment in a slot: its entries go, TAIL advances (R109). -/
def State.segFree (s : State) (l slot : Nat) : State :=
  ((s.modPort l (fun p =>
    { p with log := Log.retail { p.log with segs := p.log.segs.filter (fun x => x.slot != slot),
                                            entries := p.log.entries.filter (fun e => e.slot != slot), exhausted := false } })).logTable l).logCtl l

/-- Drop the flush pins: segments kept only by them are released, and the flush starts over (R110, R140). -/
def State.dropPins (s : State) : State :=
  if s.locker.pins.isNone && s.refr.pins.isNone then s else
  let s1 := { s with locker := { s.locker with pins := none }, refr := { s.refr with pins := none } }
  foldS s.lquays (fun l s => foldS ((s.port l).log.segs.filter (fun x => x.state == 4)) (fun x s => s.segFree l x.slot) s) s1

/-- Drop the pins of the cold flush alone: segments that no refresh pins are released (R140). -/
def State.dropFlushPins (s : State) : State :=
  let keep := fun (x : Seg) => match s.refr.pins with
    | none => false
    | some m => decide (m < x.step)
  foldS s.lquays (fun l s => foldS ((s.port l).log.segs.filter (fun x => x.state == 4 && !keep x)) (fun x s => s.segFree l x.slot) s)
    { s with locker := { s.locker with pins := none } }

/-- The close records of the segment in a slot that are not undo records: units ascending, each chain newest first (R124). -/
def Log.closes (g : Log) (slot : Nat) : List (LogEntry × CloseRec) :=
  let cs := g.entries.filterMap (fun e => match e.body with
    | .close c => if e.slot == slot && c.undoOf.isNone then some (e, c) else none
    | _ => none)
  sortBy (fun a b => decide (a.2.unit ≤ b.2.unit)) cs.reverse

/-- The replay batch record of a close record. -/
def Log.batchOf (g : Log) (off : Nat) : Option LogEntry :=
  g.entries.find? (fun e => match e.body with
    | .batch _ o _ => o == off
    | _ => false)

/-- Whether a replay has still to pass a unit: an aborting segment of the position has a close record of it that is not reverted, a lighter
of an aborting step is open on it, or a write of one is on its way to it (R126). -/
def State.unitReplaying (s : State) (l unit : Nat) : Bool :=
  let g := (s.port l).log
  let u0 := (s.lquay l).addrOfUnit unit
  g.segs.any (fun x => x.state == 3 && (g.closes x.slot).any (fun e => e.2.unit == unit && (match g.batchOf e.1.off with
    | none => true
    | some b => b.off == x.rbatch && x.left != 0))) ||
  (s.lquay l).conv.opened.any (fun o => o.unit == unit && (s.stepRec o.step).isSome && !s.liveStep o.step) ||
  (s.lquay l).ops.any (fun o => o.step.any (fun n => (s.stepRec n).isSome && !s.liveStep n) && (o.stage == .logging || o.stage == .writing || o.stage == .waitBody) &&
    u0.any (fun a => a == o.addr / 4096 * 4096))

/-- Whether a line entry or parity snapshot of `n` bytes of a step has its space (R110): the flush pins go first, then it waits for older
segments; with none left LOG_EXHAUSTED is logged once, and the current step carries an abort request. In the overflow area it waits for its
berth too. -/
def State.logClaim (s : State) (l step n : Nat) : State × Bool :=
  let at_ := (s.port l).log.head
  if s.logRoom l n then s.ovfBerth l at_ n else
  let s0 := s.dropPins
  if s0.logRoom l n then s0.ovfBerth l at_ n
  else if (s0.port l).log.exhausted || (s0.port l).log.segs.any (fun x => decide (x.step < step)) then (s0, false)
  else (((s0.modPort l (fun p => { p with log := { p.log with exhausted := true } })).evL l .logExhausted [(48, step)]).requestAbort s0.steps.last, false)

/-- Release a step's segment unless a cold flush or a refresh pins it: a pinned one keeps STATE 4 (R109, R140, R278). A parked cold
flush loses its pins when a release comes that they would hold back (R61, R140). -/
def State.segRelease (s : State) (l step : Nat) (aborted : Bool) : State :=
  let pin := fun (o : Option Nat) => match o with
    | none => false
    | some m => decide (m < step)
  let s0 := if pin s.locker.pins && s.locker.flush.any (·.parked) then s.dropFlushPins else s
  match (s0.port l).log.segOf step with
  | none => s0
  | some x =>
    if pin s0.locker.pins || pin s0.refr.pins then
      (s0.modSeg l x.slot (fun x => { x with aborted := aborted })).segState l step 4
    else s0.segFree l x.slot

end Sys2Proof.Machine
end

