-- ==== Sys2Proof/Machine/Lighter.lean ====
section
/-! DEFINITION. The sender of lighters (R74, R75, R81 to R88): assembly, closing, sequence numbers, copies,
acknowledgements, sealing and the parity lag. -/

namespace Sys2Proof.Machine

/-! ## Destinations -/

/-- The stand-in holder of stripe `st` of a convoy: the member at position s mod n of the partner convoy (R166, R179). -/
def State.partnerDev (s : State) (c : Convoy) (st : Nat) : Nat := (s.convoy c.xp).dev (st % max c.n 1)

/-- Where copies for position `x` on quay `l` go: its member, or the stand-in holder when that quay is displaced (R166). -/
def State.copyDev (s : State) (c : Convoy) (l st x : Nat) : Nat :=
  if s.job.displaced.contains (c.dev x, l) then s.partnerDev c st else c.dev x

/-- Whether position `x` of a convoy is vacant (R143, R154). -/
def State.isVacant (s : State) (c : Convoy) (x : Nat) : Bool := s.job.vacant.contains (c.idx, x) || c.dev x == 0xFFFFF

/-- The copies of a lighter of stripe `st`: one for each parity holder, and one for the extra parity once its stripe is
anchored (R74, R179). A copy to a vacant position is sealed unsent (R154). -/
def State.copiesOf (s : State) (l : Nat) (c : Convoy) (st : Nat) : List Copy :=
  (List.range c.m).map (fun j =>
    let x := c.parPos st j
    { dev := s.copyDev c l st x, dpos := x, j := j, st := if s.isVacant c x then .acked else .waiting }) ++
  (if s.xpar.send.contains (c.idx, l, st) then [{ dev := s.partnerDev c st, dpos := 0x3F, j := c.m }] else [])

/-! ## Sending copies -/

/-- BODY_LEN and body of what a lighter carries (R77, R118, R171). -/
def LKind.body (step : Nat) : LKind → Nat × Nat
  | .delta ls => encBody ls
  | .vote vk vp rec0 bl uid cd =>
    (pack [(4, vk), (4, 0), (6, vp), (2, 0), (48, step), (64, uid)] +
      (match rec0 with
        | some r => r.toNat <<< 128
        | none => if vk == 4 then (cd % 2 ^ 32) <<< 128 else 0), bl)

/-- What makes a copy leave: its first sending, an acknowledgement timeout, or another reason to send it again. -/
inductive Sending where
  | first | timeout | again
  deriving DecidableEq, Repr

/-- Whether a lighter carries deltas, and so belongs to a stripe; a vote lighter does not (R118). -/
def Lighter.isDelta (g : Lighter) : Bool :=
  match g.kind with
  | .delta _ => true
  | .vote .. => false

/-- Whether a line of this device's memory reads well: not poisoned, readable, and equal to its shadow entry (R332). -/
def State.lineSound (s : State) (l a sh ln : Nat) : Bool :=
  s.getOk l a && lineCrc (s.getLine l a) == s.shadowCrc l sh ln

/-! ## What every message carries -/

def State.hd (s : State) (c l : Nat) : Hd :=
  { src := s.ident.device, job := s.job.tag, epoch := s.job.epoch, convoy := c, quay := l }

/-- A quay finds a stripe of a convoy lost: CONVOY_LOST by each quay that does, its alarm, and an abort request in every later tally. -/
def State.stripeLost (s : State) (l c : Nat) (depth : Nat := 0) : State :=
  if s.job.convoyLost.contains (l, c) then s else
  let p := (s.phys l).getD s.q0
  State.evRaise { s with job := { s.job with convoyLost := (l, c) :: s.job.convoyLost }, steps := { s.steps with stickyAbort := true } }
    p p .convoyLost 3 c 0 depth

/-- Ask the holders of a stripe to write back its snapshots of the aborting steps, of which no undo copies go out any more (R127). No message of
the spec tells them: DESIGN CHOICE (log 71), an anchor request that lists the steps does. -/
def State.askRestore (s : State) (l convoy stripe : Nat) : State :=
  let go := s.steps.recs.filter (fun r => r.state == .aborting)
  if go.all (fun r => r.snapped.contains (convoy, stripe)) then s else
  let c := s.convoy convoy
  let s1 := foldS go (fun r s => s.modStep r.no (fun r => { r with snapped := (convoy, stripe) :: r.snapped })) s
  foldS (List.range c.m) (fun j s =>
    let d := s.copyDev c l stripe ((stripe + c.k + j) % max c.n 1)
    s.sendTx l 1 (.anchorReq d { hd := s.hd convoy l, stripe := stripe, j := j, restore := go.map (·.no) })) s1

/-- The coder fails on the body of a lighter (R345). For an undo lighter that restarts the procedure of its undo copies, which after
RECOVERY_LIMIT restarts gives way to the restore of the stripe from its snapshots (R376, R377). -/
def State.bodyFault (s : State) (l : Nat) (g : Lighter) : State :=
  if !g.undo then s else
  let n := ((s.lquay l).conv.sent.find? (fun x => x.id == g.id)).elim 0 (·.restarts)
  let r := s.restart ((s.phys l).getD 0) 1 g.stripe n
  let s1 := r.1.modLquay l (fun q => { q with conv := { q.conv with sent := mapIf (fun x => x.id == g.id) (fun x => { x with restarts := n + 1 }) q.conv.sent } })
  if !r.2 then s1
  else if s1.lpar l .snapParity != 1 then s1.stripeLost l g.convoy
  else s1.askRestore l g.convoy g.stripe

/-- The body of a lighter is read from its berth to be sent (R312, R328, R334, R336): where the access or a line fails its check, where a line
carries poison, or where the coder errs (R345), the body is built again from the line entries of the step log, and goes into the berth anew. -/
def State.bodyRead (s : State) (l : Nat) (g : Lighter) : State :=
  match g.kind with
  | .vote .. => s
  | .delta ls =>
    let u := s.berthUse l .lighter g.id (.access 0 (128 * ls.length))
    let e := if u.2 then u.1.residueErr l 2 (((s.lquay l).addrOfUnit g.unit).getD 0) else (u.1, true)
    if !e.2 then e.1
    else
      let logged := fun (x : LLine) => match ((s.port l).log.entries.find? (fun y => y.off == x.off)).map (·.body) with
        | some (.line _ _ _ d _) => d
        | _ => x.delta
      (e.1.berthPut l .lighter g.id (ls.map logged)).bodyFault l g

/-- Send one copy of a lighter with the LSEQ it holds, under the current epoch (R86); RESEND is set after a timeout alone (R76). -/
def State.sendCopy (s : State) (l : Nat) (g : Lighter) (c : Copy) (why : Sending) : State :=
  let b := g.kind.body g.step
  let h : LHdr := { type := match g.kind with
                      | .delta _ => 1
                      | .vote .. => 2,
                    resend := b2n (why == .timeout), undo := b2n g.undo, relief := b2n g.relief, didx := g.didx, convoy := g.convoy,
                    quay := l, src := s.ident.device, job := s.job.tag, epoch := s.job.epoch, step := g.step,
                    stripe := g.stripe, lseq := c.lseq.toNat,
                    mask := match g.kind with
                      | .delta ls => lineMask ls
                      | .vote .. => 0,
                    bodyLen := b.2, dpos := c.dpos, j := if c.dpos == 0x3F then c.j else match g.kind with
                      | .delta _ => c.j
                      | .vote .. => 0 }
  let f := fun (x : Copy) => if x.dpos == c.dpos then { x with since := none, waitEpoch := none, ahead := false } else x
  let s1 := (s.bodyRead l g).modLquay l (fun q =>
    { q with conv := { q.conv with sent := mapIf (fun x => x.id == g.id)
                                     (fun x => { x with copies := x.copies.map f, sentTide := some (x.sentTide.getD s.clock) }) q.conv.sent } })
  let s2 := s1.sendPkt l 1 c.dev l (40 + b.2) (h.enc + b.1 <<< 320)
  s2.countL l (if why == .first then 0x04 else 0x06) 1

/-- Unacknowledged copies of a stream with an LSEQ (R82). -/
def Conv.inFlight (v : Conv) (dev : Nat) : Nat :=
  (v.sent.flatMap (fun g => g.copies.filter (fun c => c.dev == dev && (c.st == .sent || c.st == .retired)))).length

/-- Whether a freeze stops this lighter's copies (R153): its unit is frozen and none of its copies has got an LSEQ. -/
def Conv.unitFrozen (v : Conv) (g : Lighter) : Bool :=
  g.isDelta && v.frozen.any (fun f => f.convoy == g.convoy && f.stripe == g.stripe) && !g.begun

/-- Whether the body of a lighter has its berth; a vote lighter has none (R308). -/
def State.bodyBerth (s : State) (l : Nat) (g : Lighter) : Bool :=
  match g.kind with
  | .delta _ => s.hasBerth l .lighter g.id
  | .vote .. => true

/-- Assign an LSEQ to one waiting copy and send it, where the stream and the freezes allow (R81, R82, R93, R153). -/
def State.assignCopy (s : State) (l id dpos : Nat) : State :=
  let v := (s.lquay l).conv
  match v.sent.find? (fun g => g.id == id) with
  | none => s
  | some g =>
    match g.copies.find? (fun c => c.dpos == dpos) with
    | none => s
    | some c =>
      let o := v.outS.get {} c.dev
      if c.st != .waiting || !g.recorded || !s.bodyBerth l g || o.frozen || v.unitFrozen g || 256 ≤ v.inFlight c.dev || s.quiet then s
      else
        let c' := { c with lseq := o.next, numbered := true, st := .sent }
        let g' := { g with copies := mapIf (fun x => x.dpos == dpos) (fun _ => c') g.copies, begun := true }
        let s1 := s.modLquay l (fun q =>
          { q with conv := { q.conv with sent := mapIf (fun x => x.id == id) (fun _ => g') q.conv.sent,
                                         outS := q.conv.outS.set c.dev { o with next := o.next + 1 } } })
        s1.sendCopy l g' c' .first

/-- The LSEQ of each copy that has one. -/
def Lighter.lseqs (g : Lighter) : List (Option Seq) := g.copies.map (fun c => if c.numbered then some c.lseq else none)

/-- The close record of a lighter carries the LSEQs assigned (R74). -/
def State.recordLseqs (s : State) (l id : Nat) : State :=
  match (s.lquay l).conv.sent.find? (fun g => g.id == id) with
  | none => s
  | some g =>
    match g.kind with
    | .vote .. => s
    | .delta _ => s.logRewrite l g.closeOff (fun b => match b with
      | .close c => .close { c with lseqs := g.lseqs }
      | b => b)

/-- Assign and send every copy that may go. -/
def State.assignAll (s : State) (l : Nat) : State :=
  foldS (s.lquay l).conv.sent (fun g s =>
    if g.copies.all (fun c => c.st != .waiting) then s else
    let s1 := foldS g.copies (fun c s => s.assignCopy l g.id c.dpos) s
    let after := ((s1.lquay l).conv.sent.find? (fun x => x.id == g.id)).map (fun x => x.copies.map (·.st))
    if after == some (g.copies.map (·.st)) then s1 else s1.recordLseqs l g.id) s

/-! ## Closing (R74, R75, R106) -/

/-- Offset of the newest close record of a unit in the segment of a slot, 0 if none (R103, R106). -/
def Log.lastClose (g : Log) (slot unit : Nat) : Nat :=
  g.entries.foldl (fun a e => match e.body with
    | .close c => if e.slot == slot && c.unit == unit && c.undoOf.isNone then e.off else a
    | _ => a) 0

/-- Append the close record of a lighter to the segment of its step; a step moored meanwhile has none, and needs none. -/
def State.appendClose (s : State) (l : Nat) (g : Lighter) (ls : List LLine) : State :=
  let log := (s.port l).log
  let off := log.head
  let mark := fun (s : State) (f : Lighter → Lighter) => s.modLquay l (fun q => { q with conv := { q.conv with sent := mapIf (fun x => x.id == g.id) f q.conv.sent } })
  match log.segOf g.step with
  | none => (mark s (fun x => { x with recorded := true, waitRec := false })).assignAll l
  | some seg =>
  let c : CloseRec := { ncopy := g.copies.length, convoy := g.convoy, didx := g.didx, stripe := g.stripe, unit := g.unit,
                        lines := (sortLines ls).map (·.l), bodyLen := (encBody ls).2, lseqs := g.lseqs,
                        dpos := g.copies.map (·.dpos), prev := log.lastClose seg.slot g.unit, ctide := s.tide.now,
                        loffs := ls.map (fun x => (x.l, x.off)), undoOf := none }
  ((mark s (fun x => { x with closeOff := off, waitRec := false })).logAppend l g.step (.close c) (.lighter g.id)).logIndex l seg.slot g.unit off

/-- Close an open lighter: its shadow line goes back, its close record is appended, and its copies wait for the
acknowledgement; with code-1 lines only, with `send` false, or of an aborting step, it has no copies (R74, R75, R106, R124, R330). A freeze
holds the record back, but not that of an aborting step (R90, R153). -/
def State.closeLighter (s : State) (l : Nat) (o : OpenL) (send : Bool) : State :=
  let c := s.convoy o.convoy
  match (s.lquay l).addrOfUnit o.unit with
  | none => s
  | some a =>
    let d := ((s.lquay l).dOf o.convoy a).getD 0
    let st := c.stripeAt c.pos d
    let id := o.id
    let zero := o.lines.all (fun x => x.delta == 0)
    let g : Lighter := { id := id, convoy := o.convoy, unit := o.unit, didx := c.didx d, stripe := st, step := o.step,
                         kind := .delta o.lines, copies := if send && !zero && s.liveStep o.step then s.copiesOf l c st else [] }
    let frozen := s.liveStep o.step && (s.lquay l).conv.frozen.any (fun f => f.convoy == o.convoy && f.stripe == st)
    let s1 := s.modLquay l (fun q =>
      { q with conv := { q.conv with opened := q.conv.opened.filter (fun x => x != o),
                                     sent := q.conv.sent ++ [{ g with waitRec := frozen }] } })
    let s2 := s1.shadowFlush l (c.shadowAddr l d)
    if frozen then s2 else s2.appendClose l g o.lines

/-- Close every open lighter of a step on a position that holds a line; one that waits for its berth takes its first line later. -/
def State.closeStep (s : State) (l step : Nat) (send : Bool) : State :=
  foldS ((s.lquay l).conv.opened.filter (fun o => o.step == step && !o.lines.isEmpty)) (fun o s => s.closeLighter l o send) s

/-- Append the close records a freeze held back (R153). -/
def State.appendWaiting (s : State) (l : Nat) : State :=
  foldS ((s.lquay l).conv.sent.filter (fun g => g.waitRec)) (fun g s =>
    if (s.lquay l).conv.frozen.any (fun f => f.convoy == g.convoy && f.stripe == g.stripe) then s else
    match g.kind with
    | .delta ls => s.appendClose l g ls
    | .vote .. => s) s

/-- The close records of an aborting step that a freeze holds back: their lighters stay unsent, and the records go into the log with
NCOPY 0, for the replay to find (R90, R124, log 66). -/
def State.abortWaiting (s : State) (l step : Nat) : State :=
  let s1 := s.modLquay l (fun q => { q with conv := { q.conv with sent := mapIf (fun g => g.waitRec && g.step == step) (fun g => { g with copies := [] }) q.conv.sent } })
  foldS ((s1.lquay l).conv.sent.filter (fun g => g.waitRec && g.step == step)) (fun g s =>
    match g.kind with
    | .delta ls => s.appendClose l g ls
    | .vote .. => s) s1

/-- Whether the open lighter of a unit and step has its berth; it is opened, and its berth asked for, where there is none (R74, R308). -/
def State.bodyOpen (s : State) (l convoy unit step : Nat) : State × Bool :=
  match (s.lquay l).conv.opened.find? (fun o => o.unit == unit && o.step == step) with
  | some o => (s, s.hasBerth l .lighter o.id)
  | none =>
    let id := (s.lquay l).conv.nextId
    (s.modLquay l (fun q =>
      { q with conv := { q.conv with opened := q.conv.opened ++ [{ id := id, convoy := convoy, unit := unit, step := step, first := s.clock, lines := [] }],
                                     nextId := id + 1 } })).berthAlloc l 3 .lighter id .wait

/-- Stage 9 of R29: add a line's delta to its open lighter (R74). With all 32 lines there it closes, and so it does before a second delta of a
line, which waits with the next lighter's berth. The flag says that the line is in. -/
def State.addDelta (s : State) (l convoy unit step ln off : Nat) (d : Line) : State × Bool :=
  let find := fun (s : State) => (s.lquay l).conv.opened.find? (fun o => o.unit == unit && o.step == step)
  let s1 := match find s with
    | some o => if o.lines.any (fun x => x.l == ln) then s.closeLighter l o true else s
    | none => s
  let r := s1.bodyOpen l convoy unit step
  match (if r.2 then find r.1 else none) with
  | none => (r.1, false)
  | some o =>
    let o' := { o with lines := o.lines ++ [{ l := ln, delta := d, off := off }], first := if o.lines.isEmpty then s.clock else o.first }
    let s2 := (r.1.modLquay l (fun q =>
      { q with conv := { q.conv with opened := mapIf (fun y => y == o) (fun _ => o') q.conv.opened } })).berthPut l .lighter o.id [d] o.lines.length
    (if o'.lines.length = 32 then s2.closeLighter l o' true else s2, true)

/-- LIGHTER_HOLD_EXPIRY: lighters open for LIGHTER_HOLD_T close (R74). -/
def State.holdExpire (s : State) (l : Nat) : State :=
  foldS ((s.lquay l).conv.opened.filter (fun o => !o.lines.isEmpty && s.passed o.first (s.lpar l .lighterHoldT))) (fun o s => s.closeLighter l o true) s

/-! ## Sealing (R87, R88) -/

/-- Whether every copy of a lighter is sealed; one without copies is sealed at closing (R75, R87). -/
def Lighter.isSealed (g : Lighter) : Bool := g.copies.all (fun c => c.st == .acked)

/-- Forget sealed lighters and free their berths; one stays while its close record is not acknowledged. -/
def State.reapSealed (s : State) (l : Nat) : State :=
  (s.modLquay l (fun q => { q with conv := { q.conv with sent := q.conv.sent.filter (fun g => !(g.isSealed && g.recorded && !g.waitRec)) } })).berthSync l

/-- Whether a position has sealed a step: no lighter of it open or unsealed; vote lighters do not count (R87, R118). -/
def State.stepSealed (s : State) (l step : Nat) : Bool :=
  let v := (s.lquay l).conv
  !v.opened.any (fun o => o.step == step) && !v.sent.any (fun g => g.step == step && g.isDelta && !g.isSealed)

/-- The parity lag of a position (R87), on the duration clock (R36, R38); vote lighters, which protect no line, do not count (R118). -/
def State.parityLag (s : State) (l : Nat) : Nat :=
  ((s.lquay l).conv.sent.filter (fun g => g.isDelta && !g.isSealed)).foldl (fun a g => match g.sentTide with
    | some t => max a (s.clock - t)
    | none => a) 0

/-- The seal-limit shift of a grade (R177). -/
def gradeSealShift (g : Nat) : Nat := [0, 0, 1, 1, 2, 2, 3, 3].getD g 3

/-- The parity-lag limit, shortened by the grade but not below 1,000,000 (R88, R177); before two step-starts have taken effect there is
no completed step, and SEAL_WINDOW_T stands alone (log 67). -/
def State.sealLimit (s : State) (l : Nat) : Nat :=
  let w := s.lpar l .sealWindowT
  let lim := if s.lpar l .sealWindowSteps == 1 then min w (s.steps.lastLen.getD w) else w
  let sh := lim >>> gradeSealShift s.grade.eff
  if sh < 1000000 then min lim 1000000 else sh

/-- Whether a position withholds acknowledgements of protected writes (R88). -/
def State.sealIsLate (s : State) (l : Nat) : Bool := decide (s.sealLimit l < s.parityLag l)

/-! ## Acknowledgements (R84) -/

/-- Whether a copy is out to a device under an LSEQ: sent, or retired since (R84, R92). -/
def Copy.isOut (c : Copy) (dev : Nat) (lseq : Seq) : Bool := c.dev == dev && c.numbered && c.lseq == lseq && (c.st == .sent || c.st == .retired)

/-- Change the copy of a lighter that is out to a device under an LSEQ. -/
def State.modCopy (s : State) (l dev : Nat) (lseq : Seq) (f : Copy → Copy) : State :=
  let h := fun (c : Copy) => c.isOut dev lseq
  s.modLquay l (fun q =>
    { q with conv := { q.conv with sent := q.conv.sent.map (fun g => { g with copies := mapIf h f g.copies }) } })

/-- The lighter and copy out to a device under an LSEQ. -/
def State.copyOf (s : State) (l dev : Nat) (lseq : Seq) : Option (Lighter × Copy) :=
  (s.lquay l).conv.sent.findSome? (fun g => (g.copies.find? (fun c => c.isOut dev lseq)).map (fun c => (g, c)))

/-- A stream is answered: its run of timeouts ends (R85). -/
def State.streamAnswered (s : State) (l dev : Nat) : State :=
  s.modLquay l (fun q =>
    { q with conv := { q.conv with outS := q.conv.outS.set dev { q.conv.outS.get {} dev with touts := 0, logged := false } } })

/-- What a sender does with an acknowledgement of a copy (R84); a retired one is sealed by it too, and never sent again (R87, R92). ANCHOR_DONE names a stripe and no convoy: the copies retired for that
stripe number and holder are sealed in every convoy (log 68). -/
def State.lighterAck (s : State) (l : Nat) (a : LAck) : State :=
  let lseq : Seq := BitVec.ofNat 32 a.lseq
  match a.status with
  | 6 =>
    if a.lseq == 0xFFFFFFFF then
      (s.modLquay l (fun q => { q with conv := { q.conv with outS := q.conv.outS.set a.holder { q.conv.outS.get {} a.holder with frozen := false } } })).assignAll l
    else
    let f := fun (c : Copy) => { c with st := .acked }
    let s1 := s.modLquay l (fun q =>
      { q with conv := { q.conv with sent := mapIf (fun g => g.stripe == a.lseq)
                                       (fun g => { g with copies := mapIf (fun c => c.dev == a.holder && c.st == .retired) f g.copies }) q.conv.sent } })
    (s1.reapSealed l).assignAll l
  | st =>
    match s.copyOf l a.holder lseq with
    | none => if st ≤ 5 then s.countL l 0x0D 1 else s.pktDrop l
    | some (g, c) =>
      let s0 := s.streamAnswered l a.holder
      if c.st == .retired && decide (2 ≤ st) && decide (st ≤ 4) then s0 else
      match st with
      | 0 | 1 => ((s0.modCopy l a.holder lseq (fun c => { c with st := .acked })).reapSealed l).assignAll l
      | 2 =>
        if a.epoch ≤ s.job.epoch then s0.sendCopy l g c .again
        else s0.modCopy l a.holder lseq (fun c => { c with waitEpoch := some a.epoch, since := none })
      | 3 => s0.modCopy l a.holder lseq (fun c => { c with ahead := true, since := some s.clock })
      | 4 => (s0.countL l 0x18 1).sendCopy l g c .again
      | 5 => (s0.modCopy l a.holder lseq (fun c => { c with st := .refused })).evL l .convoyConfig [(20, a.holder), (4, g.convoy)]
      | _ => s.pktDrop l

/-- Copies that waited for an epoch are sent again once it is reached (R84). -/
def State.resendEpoch (s : State) (l : Nat) : State :=
  foldS (s.lquay l).conv.sent (fun g s =>
    foldS g.copies (fun c s => match c.waitEpoch with
      | some e => if c.st == .sent && decide (e ≤ s.job.epoch) then s.sendCopy l g c .again else s
      | none => s) s) s

/-- LIGHTER_ACK_TIMEOUT: copies unanswered for LIGHTER_ACK_T are sent again; the fourth timeout in a row on a stream logs
LIGHTER_NO_ACK once (R85). A copy answered EPOCH_AHEAD is sent again without counting (R84). -/
def State.ackTimeout (s : State) (l : Nat) : State :=
  let t := s.lpar l .lighterAckT
  foldS (s.lquay l).conv.sent (fun g s =>
    foldS g.copies (fun c s =>
      match c.since with
      | some x =>
        if c.st == .sent && s.passed x t then
          let o := (s.lquay l).conv.outS.get {} c.dev
          let n := if c.ahead then o.touts else o.touts + 1
          let s1 := s.modLquay l (fun q =>
            { q with conv := { q.conv with outS := q.conv.outS.set c.dev { o with touts := n, logged := o.logged || decide (4 ≤ n) } } })
          let s2 := if decide (4 ≤ n) && !o.logged then s1.evL l .lighterNoAck [(20, c.dev)] else s1
          s2.sendCopy l g c (if c.ahead then .again else .timeout)
        else s
      | none => s) s) s

/-- Copies addressed to a device are sealed, whatever their state (R154). -/
def State.sealTo (s : State) (l dev : Nat) : State :=
  let f := fun (c : Copy) => { c with st := .acked }
  (s.modLquay l (fun q =>
    { q with conv := { q.conv with sent := q.conv.sent.map (fun g => { g with copies := mapIf (fun c => c.dev == dev) f g.copies }) } })).reapSealed l

/-- The streams to and from a device newly placed at a position start anew, at LSEQ 0 (R81). -/
def State.newStreams (s : State) (dev : Nat) : State :=
  foldS s.lquays (fun l s => s.modLquay l (fun q => { q with conv := { q.conv with
    outS := q.conv.outS.del dev, inS := q.conv.inS.del dev, marks := q.conv.marks.filter (fun m => m.src != dev) } })) s

/-- A mooring-vote lighter to a position of a convoy, sent from logical quay 0 (R118, R119, R171). -/
def State.sendVote (s : State) (c : Convoy) (x step vk vp : Nat) (rec0 : Option Line) (uid cd : Nat) : State :=
  let id := (s.lquay 0).conv.nextId
  let bl := if vk == 4 then 32 else if rec0.isSome then 144 else 16
  let g : Lighter := { id := id, convoy := c.idx, unit := 0, didx := 0, stripe := 0, step := step,
                       kind := .vote vk vp rec0 bl uid cd, copies := [{ dev := c.dev x, dpos := x, j := 0 }], recorded := true }
  let s1 := s.modLquay 0 (fun q => { q with conv := { q.conv with sent := q.conv.sent ++ [g], nextId := id + 1 } })
  s1.assignCopy 0 id x

/-- The other positions of a convoy that hold a member (not vacant). -/
def State.otherPos (s : State) (c : Convoy) : List Nat :=
  (List.range c.n).filter (fun x => x != c.pos && !s.isVacant c x)

end Sys2Proof.Machine
end

