-- ==== Sys2Proof/Machine/Salvage.lean ====
section
/-! DEFINITION. The salvage solver and the passes (R151 to R160), anchoring from the data member's side and the start of an
anchoring (R91, R92). -/

namespace Sys2Proof.Machine

/-! ## The solver (R155) -/

/-- A row of field elements scaled and added. -/
def rowScale (c : Nat) (r : List Nat) : List Nat := r.map (gfMul c)
def rowXor (a b : List Nat) : List Nat := List.zipWith (fun x y => x ^^^ y) a b

/-- Eliminate column `col` of an augmented matrix: the first row at or after `col` with a non-zero entry becomes the pivot. -/
def elimCol (col : Nat) (m : List (List Nat)) : Option (List (List Nat)) :=
  match (List.range m.length).find? (fun r => col ≤ r && (m.getD r []).getD col 0 != 0) with
  | none => none
  | some p =>
    let pr := m.getD p []
    let piv := rowScale (gfInv (pr.getD col 0)) pr
    let sw := (m.set p (m.getD col [])).set col piv
    some (sw.zipIdx.map (fun e => if e.2 == col then piv else rowXor e.1 (rowScale (e.1.getD col 0) piv)))

/-- Eliminate every column. -/
def elimAll : List Nat → List (List Nat) → Option (List (List Nat))
  | [], m => some m
  | c :: t, m => (elimCol c m).bind (elimAll t)

/-- Inverse of a square matrix over GF(2^8). -/
def gfInverse (m : List (List Nat)) : Option (List (List Nat)) :=
  let n := m.length
  let aug := m.zipIdx.map (fun e => e.1 ++ (List.range n).map (fun j => if j == e.2 then 1 else 0))
  (elimAll (List.range n) aug).map (fun r => r.map (fun x => x.drop n))

/-- The generator row of a role over the present data indices (R72): a unit row, or the row of parity j. -/
def roleRow (k : Nat) (idx : List Nat) (r : Nat) : List Nat :=
  idx.map (fun i => if r < k then (if r == i then 1 else 0) else gen (r - k) i)

/-- For lost roles and as many helpers as there are present data indices: one coefficient row over the helpers for each lost
role (R155). -/
def solve (k : Nat) (idx helpers lost : List Nat) : Option (List (List Nat)) :=
  (gfInverse (helpers.map (roleRow k idx))).map (fun inv =>
    lost.map (fun r =>
      let w := roleRow k idx r
      (List.range helpers.length).map (fun a =>
        (List.range idx.length).foldl (fun acc b => acc ^^^ gfMul (w.getD b 0) ((inv.getD b []).getD a 0)) 0)))

/-- Σ c ⊗ line over lists. -/
def combine : List Nat → List Line → Line
  | c :: cs, x :: xs => gfScale c x ^^^ combine cs xs
  | _, _ => 0

/-! ## Pieces of a stripe -/

/-- The role of this device in a stripe (R67). -/
def Convoy.role (c : Convoy) (st : Nat) : Nat := (c.pos + 2 * c.n - st % max c.n 1) % max c.n 1

/-- The position and device of a role. -/
def Convoy.rolePos (c : Convoy) (st r : Nat) : Nat := (st + r) % max c.n 1
def State.roleDev (s : State) (c : Convoy) (l st r : Nat) : Nat := s.copyDev c l st (c.rolePos st r)

/-- The address of line `ln` of this device's piece of a stripe. -/
def State.pieceAddr (s : State) (c : Convoy) (l st ln : Nat) : Option Nat :=
  let r := c.role st
  if r < c.k then ((s.lquay l).addrOfD c.idx (c.dataUnit st r)).map (· + 128 * ln)
  else some (c.parLine l (c.parUnit st (r - c.k)) ln)

/-- The shadow line of this device's piece of a stripe. -/
def Convoy.pieceShadow (c : Convoy) (l st : Nat) : Nat :=
  let r := c.role st
  if r < c.k then c.shadowAddr l (c.dataUnit st r) else c.parShadow l (c.parUnit st (r - c.k))

/-- The number of this device's piece in the progress map: d, or D + e (R158). -/
def Convoy.pieceNo (c : Convoy) (l st : Nat) : Nat :=
  let r := c.role st
  if r < c.k then c.dataUnit st r else c.d.getD l 0 + c.parUnit st (r - c.k)

/-- Whether this device is salvaging its position in a convoy (R151). -/
def State.salvaging (s : State) (c : Nat) : Bool := s.salv.any (fun x => x.convoy == c)

/-- Whether a unit or a line of a position under salvage has been rebuilt (R158). -/
def State.isSalvaged (s : State) (l c no ln : Nat) : Bool :=
  (s.lquay l).salv.units.contains (c, no) || (s.lquay l).salv.lines.contains (c, no, ln)

/-! ## Passes (R153, R155 to R160) -/

/-- Whether this device is a member of a convoy: its entry names it at its position (R64). -/
def State.isMember (s : State) (c : Convoy) : Bool := c.valid && c.dev c.pos == s.ident.device

/-- Whether the piece of a role is read from its stand-in: that of a position a displaced quay held before its device was fenced
(R152, R166). -/
def State.fromStandIn (s : State) (c : Convoy) (l st r : Nat) : Bool :=
  decide (r < c.n) && s.job.standIns.contains (c.idx, c.rolePos st r, l)

/-- Roles available for a stripe on a quay: a present data piece or a parity that a stand-in keeps, or whose member is another device,
neither vacant nor fenced, and not unavailable in this pass (R152, R160); data before parity, in role order (R155). Last comes the extra
parity while the grade has it built (R179). -/
def State.availRoles (s : State) (c : Convoy) (l st : Nat) (bad : List Nat) : List Nat :=
  let own := fun r => s.isMember c && r == c.role st
  ((c.presentIdx l st) ++ (List.range c.m).map (· + c.k)).filter (fun r =>
    let x := c.rolePos st r
    !bad.contains r && (s.fromStandIn c l st r || (!s.isVacant c x && !s.isFenced (c.dev x) && !own r))) ++
  (if 5 ≤ s.grade.eff && c.m ≤ 3 && !bad.contains c.n then [c.n] else [])

/-- The device a role's piece is read from; role n is the extra parity. -/
def State.helperDev (s : State) (c : Convoy) (l st r : Nat) : Nat :=
  if r == c.n || s.fromStandIn c l st r then s.partnerDev c st else s.roleDev c l st r

/-- The position a pass names for a role; n stands for the extra parity. -/
def Convoy.passPos (c : Convoy) (st r : Nat) : Nat := if r == c.n then c.n else c.rolePos st r

/-- The role a position named in a pass stands for. -/
def Convoy.passRole (c : Convoy) (st x : Nat) : Nat := if x == c.n then c.n else (x + c.n - st % max c.n 1) % max c.n 1

/-- A message of a pass about the piece of a role. -/
def State.passMsg (s : State) (l : Nat) (p : Pass) (r : Nat) (chain : List Hop) : SalvMsg :=
  { hd := s.hd p.convoy l, no := p.no, stripe := p.stripe, audit := p.audit, mark := 0, lines := p.lines,
    pos := (s.convoy p.convoy).passPos p.stripe r, bad := false, home := s.ident.device, lost := p.lost, chain := chain, sums := [] }

/-- Send the freezes of a pass to its data helpers (R153). -/
def State.sendFreezes (s : State) (l : Nat) (p : Pass) : State :=
  let c := s.convoy p.convoy
  foldS (p.helpers.filter (· < c.k)) (fun r s => s.sendTx l 1 (.freeze (s.helperDev c l p.stripe r) (s.passMsg l p r []))) s

/-- Send the pass to each helper (R153): for lines and audits each answers directly (R156, R349); for a whole piece each gets its
coefficients and the order of the chain (R157). -/
def State.sendPass (s : State) (l : Nat) (p : Pass) : State :=
  let c := s.convoy p.convoy
  let go := fun (hops : List Hop) => foldS p.helpers (fun r s => s.sendTx l 1 (.pass (s.helperDev c l p.stripe r) (s.passMsg l p r hops))) s
  if p.audit || !p.lines.isEmpty then go []
  else match solve c.k (c.presentIdx l p.stripe) p.helpers p.lost with
    | none => s
    | some rows => go (p.helpers.zipIdx.map (fun e => ({ dev := s.helperDev c l p.stripe e.1, pos := c.passPos p.stripe e.1,
                                                         coeffs := rows.map (fun w => w.getD e.2 0) } : Hop)))

/-- Move a pass on: freezes out, pass out. -/
def State.passGo (s : State) (l : Nat) (p : Pass) : State :=
  let c := s.convoy p.convoy
  let need := p.helpers.filter (· < c.k)
  if decide (p.frozen.length < need.length) then s.sendFreezes l p
  else (s.modLquay l (fun q =>
    { q with salv := { q.salv with passes := mapIf (fun x => x == p) (fun x => { x with passed := true }) q.salv.passes } })).sendPass l { p with passed := true }

/-- A pass of demand salvage, of one line or more of a unit. -/
def Pass.demand (p : Pass) : Bool := !p.audit && !p.lines.isEmpty

/-- The pass a quay has for a stripe, of whole pieces or an audit; passes of demand salvage run beside it (R156). -/
def State.passOf (s : State) (l c st : Nat) : Option Pass :=
  (s.lquay l).salv.passes.find? (fun p => p.convoy == c && p.stripe == st && !p.demand)

/-- The pass of demand salvage a quay has for a stripe. -/
def State.demandOf (s : State) (l c st : Nat) : Option Pass :=
  (s.lquay l).salv.passes.find? (fun p => p.convoy == c && p.stripe == st && p.demand)

/-- The pass of a number that this device runs. -/
def State.passNo (s : State) (l : Nat) (m : SalvMsg) : Option Pass :=
  (s.lquay l).salv.passes.find? (fun p => p.home == s.ident.device && p.no == m.no && p.convoy == m.hd.convoy && p.stripe == m.stripe)

/-- Whether more pieces of a stripe cannot be had than its parity makes good, the extra parity counted where it is live: fewer are left than
it has data pieces (R160). -/
def State.stripeShort (s : State) (c : Convoy) (l st : Nat) (lost bad : List Nat) : Bool :=
  decide (((s.availRoles c l st bad).filter (fun r => !lost.contains r)).length < (c.presentIdx l st).length)

/-- The roles of a stripe at other positions a verdict has placed, which take part in a pass as lost ones (R157). -/
def State.placedRoles (s : State) (c : Convoy) (l st : Nat) : List Nat :=
  ((c.presentIdx l st) ++ (List.range c.m).map (· + c.k)).filter (fun r =>
    let d := c.dev (c.rolePos st r)
    d != s.ident.device && s.job.placed.contains d && !s.isVacant c (c.rolePos st r) && !s.fromStandIn c l st r)

/-- The lines a pass rebuilds cannot be had (R30, R160). -/
def State.linesLost (s : State) (l : Nat) (c : Convoy) (st : Nat) (lines : List Nat) : State :=
  let as := (if lines.isEmpty then [0] else lines).filterMap (fun ln => s.pieceAddr c l st ln)
  s.modLquay l (fun q => { q with lostLines := as ++ q.lostLines })

/-- Start a pass: helpers are the first available roles, as many as the stripe has present data pieces; with fewer the stripe
is lost (R155, R160). A pass for lines takes a berth of the reserve for each, and waits where it has too few (R307). An audit reads every present data piece and every other parity (R349). A piece rebuilt whole takes with it those
of other positions under salvage: one chain carries a sum for each, and no helper reads its piece twice (R157). DESIGN CHOICE (log 102): a
position a verdict placed is taken to be under salvage where enough other pieces are to be had, for no message tells of its end. -/
def State.startPass (s : State) (l c st : Nat) (lost : List Nat) (lines : List Nat) (audit : Bool) (bad : List Nat)
    (restarts : Nat) : State :=
  let busy := (((s.lquay l).salv.passes.filter Pass.demand).map (fun p => p.lines.length)).sum
  if (if lines.isEmpty then s.passOf l c st else s.demandOf l c st).isSome then s
  else if !lines.isEmpty && decide (8 < busy + lines.length) then
    s.modLquay l (fun q => { q with salv := { q.salv with waitL := q.salv.waitL.filter (· ≠ (c, st, lost, lines)) ++ [(c, st, lost, lines)] } })
  else
  let cv := s.convoy c
  let idx := cv.presentIdx l st
  let other := s.placedRoles cv l st
  let all := (lost ++ other).eraseDups
  let gone := if audit || !lines.isEmpty then lost
    else if s.stripeShort cv l st all bad then (lost ++ other.filter bad.contains).eraseDups else all
  let av := (s.availRoles cv l st bad).filter (fun r => !gone.contains r || s.fromStandIn cv l st r)
  let hs := if audit then av.filter (fun r => r != cv.n && r != cv.k) else av.take idx.length
  if !audit && decide (hs.length < idx.length) then (s.linesLost l cv st lines).stripeLost l c (min restarts 1)
  else
    let id := (s.lquay l).conv.nextId
    let p : Pass := { no := id, home := s.ident.device, convoy := c, stripe := st, audit := audit, lines := lines, lost := gone, helpers := hs,
                      bad := bad, restarts := restarts, since := s.clock }
    ((s.modLquay l (fun q => { q with conv := { q.conv with nextId := id + 1 }, salv := { q.salv with passes := q.salv.passes ++ [p] } })).reserveTake l id lines.length).passGo l p

/-- Passes for lines that waited for berths of the reserve start, first come, first served (R307). -/
def State.demandGo (s : State) (l : Nat) : State :=
  foldS (s.lquay l).salv.waitL (fun x s =>
    (s.modLquay l (fun q => { q with salv := { q.salv with waitL := q.salv.waitL.filter (· ≠ x) } })).startPass l x.1 x.2.1 x.2.2.1 x.2.2.2 false [] 0) s

/-- Repeat a pass without a piece that turned out unavailable; after RECOVERY_LIMIT restarts the piece it rebuilds counts as unavailable,
and a stripe that misses more than m is lost (R159, R376, R377). -/
def State.passRepeat (s : State) (l : Nat) (p : Pass) (bad : List Nat) : State :=
  let s1 := s.modLquay l (fun q => { q with salv := { q.salv with passes := q.salv.passes.filter (· ≠ p) } })
  let c := s.convoy p.convoy
  if p.audit then s1.modLquay l (fun q => { q with dredge := { q.dredge with retry := q.dredge.retry ++ [(p.convoy, p.stripe)] } })
  else
    let r := s1.restart ((s1.phys l).getD 0) 4 p.stripe p.restarts
    if r.2 then
      let s2 := r.1.linesLost l c p.stripe p.lines
      if s.stripeShort c l p.stripe p.lost (bad ++ p.bad) then s2.stripeLost l p.convoy 1 else s2
    else r.1.startPass l p.convoy p.stripe p.lost p.lines p.audit (bad ++ p.bad) (p.restarts + 1)

/-- A pass of background salvage: a whole piece, no audit. -/
def Pass.background (p : Pass) : Bool := !p.audit && p.lines.isEmpty

/-- A pass has lost helpers: it is repeated without them; a parked one waits for its resume (R61, R159). -/
def State.passAgain (s : State) (l : Nat) (p : Pass) (bad : List Nat) : State :=
  if p.background && (s.lquay l).salv.parked then
    s.modLquay l (fun q => { q with salv := { q.salv with passes := mapIf (fun x => x == p) (fun x => { x with again := true, bad := bad ++ x.bad }) q.salv.passes } })
  else s.passRepeat l p bad

/-- The passes that lost helpers while they were parked are repeated (R61). -/
def State.passesAgain (s : State) (l : Nat) : State :=
  foldS ((s.lquay l).salv.passes.filter (fun p => p.again)) (fun p s => s.passRepeat l p []) s

/-- Whether rebuilt lines of a piece are on their way to memory: all of it, or line `ln` (R158). -/
def State.rebuilding (s : State) (l c no ln : Nat) : Bool :=
  (s.lquay l).mc.any (fun x => x.use == .rebuilt c no none || x.use == .rebuilt c no (some ln))

/-- Demand salvage of one data line of this device (R156), beside any pass of background salvage (R56). A demand for a line of a unit whose
demand pass has not gone out joins it; with one that has it waits. It waits too before SALVAGE_START (R151), and while eight lines hold the reserve (R307). -/
def State.demandSalvage (s : State) (l addr : Nat) : State :=
  match s.regionOf l addr with
  | none => s
  | some r =>
    let c := s.convoy r.convoy
    let ln := addr % 4096 / 128
    match (s.lquay l).dOf r.convoy addr with
    | none => s
    | some d =>
      let busy := (((s.lquay l).salv.passes.filter Pass.demand).map (fun p => p.lines.length)).sum
      if s.salv.any (fun x => x.convoy == r.convoy && !x.started) || decide (8 ≤ busy) || s.rebuilding l r.convoy d ln then s else
      match s.demandOf l r.convoy (c.stripeAt c.pos d) with
      | some p =>
        if !p.passed && !p.lines.contains ln then
          (s.modLquay l (fun q => { q with salv := { q.salv with passes := mapIf (fun x => x == p) (fun x => { x with lines := x.lines ++ [ln] }) q.salv.passes } })).reserveTake l p.no 1
        else s
      | none => s.startPass l r.convoy (c.stripeAt c.pos d) [c.didx d] [ln] false [] 0

/-! ## Starting an anchoring (R91, R94) and answering (R92) -/

/-- The stripe, convoy and step of a held lighter. -/
def HeldL.stripe (x : HeldL) : Nat := fld x.frame.pkt 175 144
def HeldL.convoy (x : HeldL) : Nat := fld x.frame.pkt 19 16
def HeldL.step (x : HeldL) : Nat := fld x.frame.pkt 143 96

/-- Positions that hold a present data piece of a stripe. -/
def Convoy.dataPositions (c : Convoy) (l st : Nat) : List Nat := (c.presentIdx l st).map (c.dataPos st)

/-- Whether a data member of an anchoring stripe cannot answer: its position is vacant, its device fenced, or its quay displaced. -/
def State.anchorMissing (s : State) (a : Anchor) (l : Nat) : Bool :=
  let c := s.convoy a.convoy
  (c.dataPositions l a.stripe).any (fun x =>
    (s.isVacant c x || s.isFenced (c.dev x) || s.job.displaced.contains (c.dev x, l)) && !a.answers.any (fun y => y.hd.src == c.dev x))

/-- The anchoring of a stripe that misses a data member ends: its parity is rebuilt by salvage from the remaining pieces, and the lighters
it held wait for the pass (R94); extra parity is rebuilt in the same way (R179). While another pass of the stripe runs it waits. -/
def State.anchorToPass (s : State) (l : Nat) (a : Anchor) : State :=
  if (s.passOf l a.convoy a.stripe).isSome then s else
  let mine := fun (x : HeldL) => x.why == .anchoring && x.convoy == a.convoy && x.stripe == a.stripe
  let s1 := (s.modLquay l (fun q => { q with conv := { q.conv with anch := q.conv.anch.filter (· ≠ a),
                                                                    heldL := mapIf mine (fun x => { x with why := .pass }) q.conv.heldL } })).berthFreeWork l .anchor (a.convoy * 2 ^ 32 + a.stripe)
  s1.startPass l a.convoy a.stripe [(s.convoy a.convoy).k + a.j] [] false [] 0

/-- Start re-anchoring parity `j` of a stripe: mark it and ask every present data piece's position (R91), or rebuild the parity by
salvage where one of them cannot answer (R94). -/
def State.startAnchor (s : State) (l c st j : Nat) (cause : AnchCause) : State :=
  if (s.lquay l).conv.anch.any (fun a => a.convoy == c && a.stripe == st && a.j == j) then s else
  let cv := s.convoy c
  let xs := cv.dataPositions l st
  let a : Anchor := { convoy := c, stripe := st, j := j, cause := cause, asked := xs.map cv.dev, unsent := xs.length }
  let s1 := s.modLquay l (fun q => { q with conv := { q.conv with anch := q.conv.anch ++ [a] } })
  if s.anchorMissing a l then s1.anchorToPass l a else
  foldS xs (fun x s => s.sendTx l 1 (.anchorReq (cv.dev x) { hd := s.hd c l, stripe := st, j := j, restore := [] })) s1

/-- Whether an operation holds a line of a data unit open past its old-line read (R92, R153). -/
def State.unitBusy (s : State) (l base : Nat) : Bool :=
  (s.lquay l).ops.any (fun o => o.addr / 4096 == base / 4096 && (o.stage == .logging || o.stage == .writing || o.stage == .waitBody))

/-- The lines of a data unit with the deltas of some lighters of the unit taken out. -/
def State.pieceLess (s : State) (l base : Nat) (out : List LLine) : List Line :=
  (List.range 32).map (fun ln =>
    (out.filter (fun x => x.l == ln)).foldl (fun a x => a ^^^ x.delta) (s.getLine l (base + 128 * ln)))

/-- The delta lines of lighters of a unit. -/
def lighterLines (gs : List Lighter) : List LLine :=
  gs.flatMap (fun g => match g.kind with
    | .delta ls => ls
    | .vote .. => [])

/-- Whether the data piece at an address is whole here: its position is not under salvage, or the piece has been rebuilt. -/
def State.pieceWhole (s : State) (l : Nat) (c : Convoy) (st : Nat) : Bool :=
  !s.salvaging c.idx || (List.range 32).all (fun ln => s.isSalvaged l c.idx (c.pieceNo l st) ln)

/-- Answer an anchor request (R92): close the open lighter at once, take out the deltas whose copy to this holder has no LSEQ yet, and
retire its unacknowledged copies, those of an earlier request included. The piece is read behind the open lines of the unit, once a replay has
passed it (R126), at job start once the shadow is made (R495), and at a standby once it is rebuilt (R152). A line of it that fails its check is
rebuilt by demand salvage first (R332). -/
def State.answerAnchor (s : State) (l : Nat) (r : AnchorReq) : State :=
  let c := s.convoy r.hd.convoy
  let i := c.role r.stripe
  match (s.lquay l).addrOfD c.idx (c.dataUnit r.stripe i) with
  | none => s
  | some base =>
    if !c.present l r.stripe i || decide (c.k ≤ i) then s else
    let u := ((s.lquay l).unitOf base).getD 0
    let s1 := foldS ((s.lquay l).conv.opened.filter (fun o => o.unit == u && !o.lines.isEmpty)) (fun o s => s.closeLighter l o true) s
    if s1.unitBusy l base || s1.unitReplaying l u || (s1.job.phase == .starting && !s1.job.dataDone) || !s1.pieceWhole l c r.stripe then
      s1.modLquay l (fun q => { q with conv := { q.conv with ansWait := r :: q.conv.ansWait.filter (· ≠ r) } })
    else
      let weak := ((List.range 32).map (fun ln => base + 128 * ln)).filter (fun a =>
        !(s1.lquay l).lostLines.contains a && !s1.lineSound l a (c.pieceShadow l r.stripe) (a % 4096 / 128))
      if !weak.isEmpty then
        foldS weak (fun a s => s.demandSalvage l a) (s1.modLquay l (fun q => { q with conv := { q.conv with ansWait := r :: q.conv.ansWait.filter (· ≠ r) } }))
      else
      let s1 := s1.shadowTouch l (c.pieceShadow l r.stripe)
      let v := (s1.lquay l).conv
      let mine := v.sent.filter (fun g => g.isDelta && g.unit == u)
      let wait := mine.filter (fun g => g.waitRec || g.copies.any (fun c => c.dev == r.hd.src && c.st == .waiting))
      let out := fun (c : Copy) => c.dev == r.hd.src && (c.st == .sent || c.st == .retired)
      let ret := mine.flatMap (fun g => (g.copies.filter out).map (·.lseq))
      let piece := s1.pieceLess l base (lighterLines wait)
      let f := fun (c : Copy) => { c with st := .retired, since := none }
      let s2 := if r.j == c.m then { s1 with xpar := { s1.xpar with send := (c.idx, l, r.stripe) :: s1.xpar.send.filter (· ≠ (c.idx, l, r.stripe)) } } else s1
      let s3 := s2.modLquay l (fun q =>
        { q with conv := { q.conv with ansWait := q.conv.ansWait.filter (· ≠ r),
                                       sent := mapIf (fun g => g.isDelta && g.unit == u) (fun g => { g with copies := mapIf out f g.copies }) q.conv.sent } })
      s3.sendTx l 2 (.anchorAns r.hd.src
        { hd := s3.hd c.idx l, stripe := r.stripe, didx := i, j := r.j,
          mark := (v.outS.get {} r.hd.src).next, ret := ret, lcrc := piece.map lineCrc, piece := piece })

/-- Answer the requests that waited. -/
def State.answerWaiting (s : State) (l : Nat) : State :=
  foldS (s.lquay l).conv.ansWait (fun r s => s.answerAnchor l r) s

/-! ## The helper's side (R153, R157) -/

/-- A freeze arrives: the unit is frozen (R153); one of demand salvage stands beside that of a pass of the same device (R156). -/
def State.salvFreeze (s : State) (l : Nat) (m : SalvMsg) : State :=
  let c := s.convoy m.hd.convoy
  let i := c.role m.stripe
  let u := (((s.lquay l).addrOfD c.idx (c.dataUnit m.stripe i)).bind (s.lquay l).unitOf).getD 0
  let f : Frozen := { no := m.no, lost := m.lost, convoy := m.hd.convoy, stripe := m.stripe, unit := u, by_ := m.hd.src, since := s.clock, part := !m.lines.isEmpty }
  let same := fun (x : Frozen) => x.convoy == f.convoy && x.stripe == f.stripe && x.by_ == f.by_ && x.part == f.part
  s.modLquay l (fun q => { q with conv := { q.conv with frozen := q.conv.frozen.filter (fun x => !same x) ++ [f] } })

/-- The devices that hear of a frozen unit: the one that runs the pass, and the standbys of the other pieces it rebuilds, each with the
MARK of its own stream (R153, R157). -/
def State.frozenTo (s : State) (l : Nat) (f : Frozen) : List Nat :=
  let c := s.convoy f.convoy
  f.by_ :: (((f.lost.filter (· < c.n)).map (s.roleDev c l f.stripe)).eraseDups.filter (fun d => d != f.by_ && d != s.ident.device && d != 0xFFFFF))

/-! ## Records of a position (R133) -/

/-- Write the device's own records: the last two moored, the older first; with one alone the older place holds zeros (R133, log 72). -/
def State.writeRecords (s : State) (rs : List Line) : State :=
  let ls := rs.reverse.take 2 |>.reverse
  let two := if ls.length < 2 then 0 :: ls else ls
  let s1 := { s with steps := { s.steps with records := ls, prevRec := ls.getLastD s.steps.prevRec } }
  s1.ownWrite 0 (s.hpar .recBase) 256 ((two.getD 0 0).toNat + (two.getD 1 0).toNat <<< 1024)

/-- The step of a record (R130). -/
def recStep (r : Line) : Nat := byt r.toNat 7 2

/-- A standby takes its predecessor's records from replicas of its position: they stand before its own, and its steps go on from the
newest, whose step is moored (R133, R134, R151, log 80). -/
def State.adoptRecords (s : State) (rs : List Line) : State :=
  let new := (rs.foldl (fun a r => if (a ++ s.steps.records).any (fun x => recStep x == recStep r) then a else a ++ [r]) ([] : List Line))
  if new.isEmpty then s else
  let s1 := s.writeRecords (sortBy (fun a b => decide (recStep a ≤ recStep b)) (new ++ s.steps.records))
  let top := recStep s1.steps.prevRec
  if (s.steps.anyMoored && decide (top ≤ s.steps.moored)) || top == 0 then s1 else
  let ahead := decide (top < s.steps.last)
  let v := s1.steps.prevRec.toNat
  { s1 with steps := { s1.steps with moored := top, anyMoored := true, last := max s1.steps.last top, unknown := s1.steps.unknown && ahead,
                                     expCursor := if ahead then s1.steps.expCursor else (byt v 23 16 + byt v 35 32) % 2 ^ 64 } }

/-- The replicas held of the position at which a verdict has placed a device (R133). -/
def State.replicasFor (s : State) (c d : Nat) : List Line :=
  let cv := s.convoy c
  if !s.job.placed.contains d then [] else
  ((List.range cv.n).find? (fun x => cv.dev x == d)).elim [] (fun x => s.steps.replicas.get [] (c, x))

/-- Answer FROZEN for every freeze whose unit has no assigned copy unacknowledged by a live holder, and no half-assigned
lighter (R153). Copies retired for an anchoring of the holder that now runs the pass are in the piece it reads (R92, R94). To a standby it carries the replicas held of that standby's position (R133, log 80). -/
def State.answerFrozen (s : State) (l : Nat) : State :=
  foldS ((s.lquay l).conv.frozen.filter (fun f => !f.answered)) (fun f s =>
    let v := (s.lquay l).conv
    let busy := v.sent.any (fun g => g.isDelta && g.unit == f.unit && g.convoy == f.convoy &&
      g.copies.any (fun c => c.st == .sent || (c.st == .retired && c.dev != f.by_) || (g.begun && c.st == .waiting)))
    if busy then s else
    let s1 := s.modLquay l (fun q =>
      { q with conv := { q.conv with frozen := mapIf (fun x => x == f) (fun x => { x with answered := true }) q.conv.frozen } })
    foldS (s.frozenTo l f) (fun d s => s.sendTx l 2 (.frozenA d
      { hd := s.hd f.convoy l, no := f.no, stripe := f.stripe, audit := false, mark := (v.outS.get {} d).next,
        lines := [], pos := (s.convoy f.convoy).pos, bad := false, home := f.by_, lost := f.lost, chain := [], sums := [], recs := s.replicasFor f.convoy d })) s1) s

/-- Whether a freeze is that of a pass. -/
def Frozen.of (f : Frozen) (m : SalvMsg) : Bool := f.convoy == m.hd.convoy && f.stripe == m.stripe && f.by_ == m.home && f.no == m.no

/-- End the freezes `p` picks: lighters that closed meanwhile get their close records (R153). -/
def State.endFreeze (s : State) (l : Nat) (p : Frozen → Bool) : State :=
  let s1 := s.modLquay l (fun q => { q with conv := { q.conv with frozen := q.conv.frozen.filter (fun x => !p x) } })
  (s1.appendWaiting l).assignAll l

/-- Whether a pass asks for a piece this device keeps for another: a stand-in or the extra parity. -/
def State.sidePiece (s : State) (c : Convoy) (m : SalvMsg) : Bool := !s.isMember c || c.passPos m.stripe (c.role m.stripe) != m.pos

/-- The lines a pass asks for: its own, or the whole piece. -/
def wantedLines (m : SalvMsg) : List Nat := if m.lines.isEmpty then List.range 32 else m.lines

/-- Lines of this device's piece that fail their check or carry poison (R159, R334). -/
def State.badLinesOf (s : State) (l : Nat) (m : SalvMsg) : List Nat :=
  let c := s.convoy m.hd.convoy
  match s.pieceAddr c l m.stripe 0 with
  | none => []
  | some base => (wantedLines m).filter (fun ln => s.steps.rebuild.contains (l, base + 128 * ln) || !s.lineSound l (base + 128 * ln) (c.pieceShadow l m.stripe) ln)

/-- The lines a helper reads for a pass, a data piece without the deltas of lighters none of whose copies has got an LSEQ; none when a
line does not read, fails its shadow or is itself unsalvaged (R152, R153, R159, R334). -/
def State.helperPiece (s : State) (l : Nat) (m : SalvMsg) : Option (List Line) :=
  let c := s.convoy m.hd.convoy
  let r := c.role m.stripe
  if s.sidePiece c m then
    let side := (wantedLines m).map (fun ln => s.xpar.lines.find (m.hd.convoy, l, m.stripe, c.passRole m.stripe m.pos, ln))
    if side.all (·.isSome) then some (side.map (·.getD 0)) else none
  else
    match s.pieceAddr c l m.stripe 0 with
    | none => none
    | some base =>
      let u := ((s.lquay l).unitOf base).getD 0
      let out := if r < c.k then lighterLines ((s.lquay l).conv.sent.filter (fun g =>
          g.isDelta && g.unit == u && g.convoy == c.idx && !g.begun && !g.isSealed)) ++
          ((s.lquay l).conv.opened.filter (fun o => o.unit == u)).flatMap (·.lines)
        else []
      let piece := s.pieceLess l base out
      if (wantedLines m).all (fun ln => !s.salvaging c.idx || s.isSalvaged l c.idx (c.pieceNo l m.stripe) ln) && (s.badLinesOf l m).isEmpty then
        some ((wantedLines m).map (fun ln => piece.getD ln 0)) else none

/-- A helper's own line that fails is rebuilt by demand salvage, a parity line by re-anchoring (R89, R159). -/
def State.rebuildOwn (s : State) (l : Nat) (m : SalvMsg) : State :=
  let c := s.convoy m.hd.convoy
  if s.sidePiece c m then s else
  foldS (s.badLinesOf l m) (fun ln s =>
    if c.role m.stripe < c.k then match s.pieceAddr c l m.stripe ln with
      | some a => s.demandSalvage l a
      | none => s
    else s.startAnchor l c.idx m.stripe (c.role m.stripe - c.k) .lost) s

/-- A helper's piece scaled for each sum of a chain (R157). -/
def chainScale (coeffs : List Nat) (piece : List Line) : List (List Line) := coeffs.map (fun c => piece.map (gfScale c))

/-- Two sets of sums added; none stands for the sums before the first hop. -/
def chainAdd (a b : List (List Line)) : List (List Line) :=
  a.zipIdx.map (fun e => e.1.zipIdx.map (fun x => x.1 ^^^ ((b.getD e.2 []).getD x.2 0)))

/-- Whether a part of a chain is the one a message belongs to. -/
def HopPart.of (x : HopPart) (m : SalvMsg) : Bool :=
  x.msg.home == m.home && x.msg.no == m.no && x.msg.hd.convoy == m.hd.convoy && x.msg.stripe == m.stripe && x.msg.pos == m.pos

/-- Send a chain's sums on once this helper's piece is read and the sums before it have come: to the next helper, or from the last one
to the device that runs the pass and to the standbys of the other pieces (R157). -/
def State.chainGo (s : State) (l : Nat) (x : HopPart) : State :=
  match x.mine, x.got with
  | some a, some b =>
    let m := x.msg
    let c := s.convoy m.hd.convoy
    let i := (m.chain.map (·.pos)).idxOf m.pos
    let sums := chainAdd a b
    let s1 := s.modLquay l (fun q => { q with conv := { q.conv with parts := q.conv.parts.filter (fun y => !y.of m) } })
    match m.chain[i + 1]? with
    | some h => s1.sendTx l 1 (.chain h.dev { m with hd := s.hd m.hd.convoy l, pos := h.pos, sums := sums })
    | none =>
      let f : Frozen := { no := m.no, lost := m.lost, convoy := c.idx, stripe := m.stripe, unit := 0, by_ := m.home, since := 0 }
      foldS (s.frozenTo l f) (fun d s => s.sendTx l 1 (.chain d { m with hd := s.hd m.hd.convoy l, chain := [], sums := sums })) s1
  | _, _ => s

/-- Keep what has come of a helper's part in a chain, and go on with it. -/
def State.chainPart (s : State) (l : Nat) (m : SalvMsg) (f : HopPart → HopPart) : State :=
  let x := f (((s.lquay l).conv.parts.find? (fun y => y.of m)).getD { msg := m })
  (s.modLquay l (fun q => { q with conv := { q.conv with parts := q.conv.parts.filter (fun y => !y.of m) ++ [x] } })).chainGo l x

/-- The sums of the helper before this one arrive (R157); they may come before the pass itself. -/
def State.chainHop (s : State) (l : Nat) (m : SalvMsg) : State := s.chainPart l m (fun x => { x with got := some m.sums })

/-- Whether a parity of a stripe is about to be restored from its snapshots on a position (R127). -/
def State.restoringStripe (s : State) (l c st : Nat) : Bool :=
  (s.lquay l).conv.resets.any (fun r => !r.restore.isEmpty && r.convoy == c && (r.only.isNone || r.only == some st)) ||
  s.job.heldMsg.any (fun m => m.pos == l && (match m.msg with
    | .anchorReq _ a => a.hd.convoy == c && a.stripe == st && !a.restore.isEmpty
    | _ => false))

/-- A pass at a helper: behind the open lines of the unit, and behind a replay that has still to pass it (R127), read the piece, end the freeze, and answer or add to the chain (R153, R157).
A pass that follows no freeze of its own, which has ended by itself, is not acted on (R153). -/
def State.helperPass (s : State) (l : Nat) (m : SalvMsg) : State :=
  let c := s.convoy m.hd.convoy
  let data := !s.sidePiece c m && decide (c.role m.stripe < c.k)
  let frozen := (s.lquay l).conv.frozen.any (fun f => f.of m && f.answered)
  if data && !frozen then s.countL l 0x0D 1
  else if (!data && !s.sidePiece c m && s.restoringStripe l c.idx m.stripe) || data && ((s.pieceAddr c l m.stripe 0).any (fun a => s.unitBusy l a || ((s.lquay l).unitOf a).any (s.unitReplaying l))) then
    s.modLquay l (fun q => { q with conv := { q.conv with passWait := m :: q.conv.passWait.filter (· ≠ m) } })
  else
    let p := s.helperPiece l m
    let read := fun (s : State) => foldS (wantedLines m) (fun ln s => match s.pieceAddr c l m.stripe ln with
      | some a => s.holdTouch l a
      | none => s) (s.shadowTouch l (c.pieceShadow l m.stripe))
    let s0 := State.modLquay (if s.sidePiece c m then s else read s) l (fun q => { q with conv := { q.conv with passWait := q.conv.passWait.filter (· ≠ m) } })
    let s1 := s0.endFreeze l (·.of m)
    let hd := s.hd m.hd.convoy l
    match p with
    | none => (s1.rebuildOwn l m).sendTx l 2 (.lines m.home { m with hd := hd, bad := true, chain := [], sums := [] })
    | some piece =>
      match m.chain.find? (fun h => h.pos == m.pos) with
      | none => s1.sendTx l 2 (.lines m.home { m with hd := hd, sums := [piece] })
      | some h => s1.chainPart l m (fun x => { x with
          msg := m, mine := some (chainScale h.coeffs piece), got := if (m.chain.map (·.pos)).head? == some m.pos then some [] else x.got })

/-- Passes that waited for a line of their unit go on. -/
def State.passWaiting (s : State) (l : Nat) : State :=
  foldS (s.lquay l).conv.passWait (fun m s => s.helperPass l m) s

/-! ## The standby's side -/

/-- The work of background salvage's berths, and of what a parked salvage spills and spools, which is no collective's. -/
def salvWork : Nat := 0
def spillWork : Nat := 2 ^ 32

/-- What arrives for a parked pass waits in the spool: its lines go into memory-tier berths, with their check values (R58). -/
def State.salvSpool (s : State) (l : Nat) (t : Tx) (m : SalvMsg) : State :=
  let s1 := foldS (if m.sums.isEmpty then [[]] else m.sums) (fun ls s => s.berthSpill l 2 .spool spillWork ls) s
  s1.modLquay l (fun q => { q with salv := { q.salv with spool := q.salv.spool ++ [t] } })

/-- A FROZEN answer to the device that runs the pass (R153); to the standby of another piece of the stripe it gives the MARK up to which
copies are absorbed while the pass lasts (R154, R157). Where both standbys have begun a pass of the stripe, one chain serves both: DESIGN CHOICE
(log 127), the one of the lower device identifier goes on, and the other takes its sums. -/
def State.frozenIn (s0 : State) (l : Nat) (m : SalvMsg) : State :=
  let s := if s0.salvaging m.hd.convoy then s0.adoptRecords m.recs else s0
  let put := fun (s : State) (p p' : Pass) => s.modLquay l (fun q => { q with salv := { q.salv with passes := mapIf (fun x => x == p) (fun _ => p') q.salv.passes } })
  if m.home == s.ident.device then
    match s.passNo l m with
    | none => s.countL l 0x0D 1
    | some p =>
      if p.passed || p.frozen.any (fun e => e.1 == m.hd.src) then s
      else if p.background && (s.lquay l).salv.parked then s.salvSpool l (.frozenA s.ident.device m) m
      else
        let p' := { p with frozen := p.frozen ++ [(m.hd.src, m.mark)] }
        let s1 := put s p p'
        if p'.frozen.length = (p.helpers.filter (fun r => decide (r < (s.convoy p.convoy).k))).length then s1.passGo l p' else s1
  else
    match s.passOf l m.hd.convoy m.stripe with
    | some p =>
      if p.home == s.ident.device && (p.passed || !p.background || decide (s.ident.device < m.home) || !m.lost.contains ((s.convoy p.convoy).role p.stripe)) then s.countL l 0x0D 1
      else if p.home == m.home && p.no == m.no then put s p { p with frozen := p.frozen ++ [(m.hd.src, m.mark)] }
      else put s p { p with home := m.home, no := m.no, lost := m.lost, helpers := [], frozen := [(m.hd.src, m.mark)], passed := true, since := s.clock }
    | none =>
      if !s.salvaging m.hd.convoy || !m.lost.contains ((s.convoy m.hd.convoy).role m.stripe) then s.countL l 0x0D 1 else
      s.modLquay l (fun q => { q with salv := { q.salv with passes := q.salv.passes ++
        [{ no := m.no, home := m.home, convoy := m.hd.convoy, stripe := m.stripe, audit := false, lines := [], lost := m.lost, helpers := [],
           frozen := [(m.hd.src, m.mark)], passed := true, since := s.clock }] } })

/-- Write a rebuilt line of this device's piece with its shadow entry (R156, R158), and say what a failed line was (R332):
`check` compares the rebuilt line with the shadow entry and with memory; a line that passed its check, and that an audit found corrupt, is rewritten
with its entry alone (R350). -/
def State.putRebuilt (s : State) (l : Nat) (c : Convoy) (st ln : Nat) (x : Line) (check : Bool) (use : McUse) : State :=
  match s.pieceAddr c l st ln with
  | none => s
  | some a =>
    let sh := c.pieceShadow l st
    let memBad := !(s.getOk l a) || s.getLine l a != x
    let shBad := s.shadowCrc l sh ln != lineCrc x
    let exp := s.shadowCrc l sh ln
    let obs := lineCrc (s.getLine l a)
    let s1 := if memBad then s.putLine l a x use else s
    let s2 := if shBad then s1.shadowPut l sh ln (lineCrc x) else s1
    let check := check && !s.lineSound l a sh ln
    let s3 := if check && memBad then s2.sigL l { cls := 3, unit := 0xB, addr := a, expected := exp, observed := obs, depth := 1 } else s2
    let s4 := if check && shBad then s3.sigL l { cls := 4, unit := 0xB, addr := a, expected := exp, observed := obs, depth := 1 } else s3
    s4.countL l 0x0A 1 { addr := some a }

/-- The first bit of a convoy in the progress map, and the bits of all convoys. -/
def State.mapBits (s : State) (l : Nat) (c : Nat) : Nat × Nat :=
  let n := fun (xs : List Convoy) => xs.foldl (fun a x => a + x.d.getD l 0 + x.parUnits l) 0
  (n (s.convoys.filter (fun x => x.idx < c)), n s.convoys)

/-- Clear the progress map of a position, in memory and in the state, before its salvage starts or starts over, and when it is over (R158,
R159). -/
def State.mapClear (s : State) (l c : Nat) : State :=
  let base := s.lpar l .salvMapBase
  let b := s.mapBits l c
  let n := let x := s.convoy c; x.d.getD l 0 + x.parUnits l
  let s1 := s.modLquay l (fun q => { q with salv := { q.salv with units := q.salv.units.filter (fun u => u.1 != c), lines := q.salv.lines.filter (fun u => u.1 != c) } })
  if n == 0 then s1 else
  let lo := b.1 / 8
  let hi := (b.1 + n - 1) / 8
  let keep := fun (s : State) (i : Nat) =>
    let m := ((List.range 8).filter (fun k => decide (8 * i + k < b.1) || decide (b.1 + n ≤ 8 * i + k))).foldl (fun a k => a + 2 ^ k) 0
    s.ownWrite l (base + i) 1 (s.readB l (base + i) 1 &&& m)
  let s2 := keep (if lo == hi then s1 else keep (s1.zeroArea l (base + lo + 1) (hi - lo - 1)) hi) lo
  s2.zeroArea l (base + cdiv b.2 8 + 4 * b.1) (4 * n)

/-- Mark a piece in the progress map, in memory and in the state (R158). DESIGN CHOICE, unsafe (log 48): the spec gives the map's content and no
layout; here the bits of the units come first, convoys in index order, and after them 4 bytes of line bits for each unit. -/
def State.markPiece (s : State) (l : Nat) (c : Convoy) (no : Nat) (line : Option Nat) : State :=
  let base := s.lpar l .salvMapBase
  let nu := (s.mapBits l c.idx).1 + no
  match line with
  | none =>
    (s.modLquay l (fun q => { q with salv := { q.salv with units := (c.idx, no) :: q.salv.units.filter (· ≠ (c.idx, no)) } })).ownWrite l
      (base + nu / 8) 1 (s.readB l (base + nu / 8) 1 ||| 2 ^ (nu % 8))
  | some ln =>
    let b := base + cdiv (s.mapBits l c.idx).2 8 + 4 * nu + ln / 8
    (s.modLquay l (fun q => { q with salv := { q.salv with lines := (c.idx, no, ln) :: q.salv.lines.filter (· ≠ (c.idx, no, ln)) } })).ownWrite l
      b 1 (s.readB l b 1 ||| 2 ^ (ln % 8))

/-- Mark a rebuilt piece, or a line of it, once the channel port has accepted its lines and its shadow line (R158). -/
def State.rebuiltDone (s : State) (l c no : Nat) (line : Option Nat) : State :=
  if !s.salvaging c || (s.lquay l).mc.any (fun x => x.use == .rebuilt c no line) ||
    (s.lquay l).pageWait.any (fun x => x.2.2 == .rebuilt c no line) then s else s.markPiece l (s.convoy c) no line

/-- Write back the shadow line of a rebuilt piece, as part of what its mark waits for. -/
def State.shadowRebuilt (s : State) (l : Nat) (c : Convoy) (st : Nat) (line : Option Nat) : State :=
  match (s.lquay l).shadow.find? (fun e => e.1 == c.pieceShadow l st) with
  | some e => s.writeB l e.1 128 e.2.toNat (.rebuilt c.idx (c.pieceNo l st) line)
  | none => s

/-- The pieces of a demand pass are in: decode its lines, write them, and let their operations go on (R156); a berth of the reserve that cannot be
reached repeats it (R312). Where the solver's residue check fails the decode is repeated with a fresh inversion (R345). -/
def State.finishDemand (s0 : State) (l : Nat) (p : Pass) : State :=
  let u := s0.berthUse l .demand p.no (.access 0 (128 * p.helpers.length))
  if !u.2 then u.1.passRepeat l p [] else
  let s := u.1
  let c := s.convoy p.convoy
  let no := c.pieceNo l p.stripe
  let s1 := s.modLquay l (fun q => { q with salv := { q.salv with passes := q.salv.passes.filter (· ≠ p) } })
  match solve c.k (c.presentIdx l p.stripe) p.helpers p.lost with
  | some (row :: _) =>
    let s1 := (s1.residueErr l 3 (((s1.pieceAddr c l p.stripe 0)).getD 0)).1
    foldS p.lines.zipIdx (fun e s =>
      let x := combine row (p.helpers.map (fun r => (p.pieces.get [] r).getD e.2 0))
      let s2 := (s.putRebuilt l c p.stripe e.1 x (!s.salvaging p.convoy || s.isSalvaged l c.idx no e.1) (.rebuilt c.idx no (some e.1))).shadowRebuilt l c p.stripe (some e.1)
      match s.pieceAddr c l p.stripe e.1 with
      | some a => (({ s2 with steps := { s2.steps with rebuild := s2.steps.rebuild.filter (· ≠ (l, a)) } } : State).rebuiltDone l c.idx no (some e.1)).modLquay l (fun q => { q with salv := { q.salv with rebuilt := q.salv.rebuilt ++ [(a, x)] } })
      | none => s2) s1
  | _ => s1

/-- Whether this device keeps the stand-in of a role of a stripe (R166). -/
def State.standInFor (s : State) (c : Convoy) (l st r : Nat) : Bool :=
  r < c.n && s.job.displaced.contains (c.dev (c.rolePos st r), l) && s.partnerDev c st == s.ident.device

/-- Whether this device keeps a piece of a stripe in its ballast: a stand-in, or the extra parity, role n (R166, R179). -/
def State.sideFor (s : State) (c : Convoy) (l st r : Nat) : Bool :=
  s.standInFor c l st r || (r == c.n && decide (c.m ≤ 3) && s.partnerDev c st == s.ident.device)

/-- What a chain delivers: write every lost piece that is this device's own or one it keeps in ballast; its own is marked once it is
accepted (R157, R158). -/
def State.finishChain (s : State) (l : Nat) (p : Pass) (sums : List (List Line)) : State :=
  let c := s.convoy p.convoy
  let s1 := s.modLquay l (fun q => { q with salv := { q.salv with passes := q.salv.passes.filter (· ≠ p) } })
  let side := (List.range p.lost.length).filter (fun i => s.sideFor c l p.stripe (p.lost.getD i 99))
  let s1' := foldS side (fun i s => foldS (List.range 32) (fun ln s =>
    { s with xpar := { s.xpar with lines := s.xpar.lines.set (c.idx, l, p.stripe, p.lost.getD i 99, ln) ((sums.getD i []).getD ln 0) } }) s) s1
  match (List.range p.lost.length).find? (fun i => p.lost.getD i 99 == c.role p.stripe && !side.contains i) with
  | none => s1'
  | some i =>
    let ls := sums.getD i []
    let no := c.pieceNo l p.stripe
    let s2 := foldS (List.range 32) (fun ln s =>
      if s.isSalvaged l c.idx no ln || s.rebuilding l c.idx no ln then s else s.putRebuilt l c p.stripe ln (ls.getD ln 0) false (.rebuilt c.idx no none)) s1'
    (s2.shadowRebuilt l c p.stripe none).rebuiltDone l c.idx no none

/-- SALV_FREEZE_EXPIRY: freezes that no pass has followed end, and so do passes of another standby's; a pass of this device that is still
without its pieces is repeated from the start (R153). -/
def State.freezeExpire (s : State) (l : Nat) : State :=
  let t := s.lpar l .salvFreezeT
  let s1 := s.endFreeze l (fun f => s.passed f.since t && !(s.lquay l).conv.passWait.any f.of)
  let old := (s1.lquay l).salv.passes.filter (fun p => s1.passed p.since t && !(p.background && (s1.lquay l).salv.parked))
  let drop := fun (s : State) (p : Pass) => s.modLquay l (fun q => { q with salv := { q.salv with passes := q.salv.passes.filter (· ≠ p) } })
  foldS old (fun p s =>
    if p.home != s.ident.device then drop s p
    else if p.audit then s.passRepeat l p []
    else (drop s p).startPass l p.convoy p.stripe p.lost p.lines false p.bad p.restarts) s1

end Sys2Proof.Machine
end

