-- ==== Sys2Proof/Machine/Holder.lean ====
section
/-! DEFINITION. The parity holder (R80 to R94, R108, R127, R154): arriving lighters, their application to parity, anchoring,
stream resets and snapshot restore. -/

namespace Sys2Proof.Machine

/-! ## Streams (R81, R82) -/

/-- Whether an LSEQ has been applied: below B, or in the map. -/
def InStream.has (i : InStream) (x : Seq) : Bool := Seq.later i.base x || i.map.contains x

/-- Whether an LSEQ lies at or beyond B + 256. -/
def InStream.beyond (i : InStream) (x : Seq) : Bool := !Seq.later i.base x && decide (256 ≤ (x - i.base).toNat)

/-- Advance B past leading applied LSEQs. -/
def InStream.advance : Nat → InStream → InStream
  | 0, i => i
  | n + 1, i => if i.map.contains i.base then InStream.advance n { i with base := i.base + 1, map := i.map.filter (· ≠ i.base) } else i

/-- Mark an LSEQ applied. -/
def InStream.mark (i : InStream) (x : Seq) : InStream :=
  if i.has x then i else InStream.advance 257 { i with map := x :: i.map }

/-- The incoming stream of a device on a position. -/
def State.inStream (s : State) (l dev : Nat) : InStream := (s.lquay l).conv.inS.get {} dev

/-- Mark an LSEQ of a stream applied; a MARK of a restore is kept until B has passed it (R127). -/
def State.markIn (s : State) (l dev : Nat) (x : Seq) : State :=
  s.modLquay l (fun q =>
    let i := (q.conv.inS.get {} dev).mark x
    { q with conv := { q.conv with inS := q.conv.inS.set dev i,
                                   marks := q.conv.marks.filter (fun m => m.src != dev || !(m.mark == i.base || Seq.later i.base m.mark)) } })

/-! ## Where a lighter lands -/

/-- A parity unit of this device's area, or a role kept in ballast: extra parity (role n) or a stand-in. -/
inductive Land where
  | par (e : Nat)
  | side (r : Nat)
  deriving DecidableEq, Repr

/-- Where a delta lighter lands; none when it is answered NOT_MEMBER (R84). So is one whose STRIPE lies at or beyond the stripes of the
quay, which the table does not name (log 70). -/
def State.landing (s : State) (l : Nat) (h : LHdr) : Option Land :=
  let c := s.convoy h.convoy
  if decide (c.k < 2) || decide (c.stripes l ≤ h.stripe) then none
  else if h.dpos == 0x3F then
    (if h.j == c.m && s.partnerDev c h.stripe == s.ident.device then some (.side c.n) else none)
  else if decide (c.n ≤ h.dpos) || decide (c.m ≤ h.j) || c.parPos h.stripe h.j != h.dpos then none
  else if c.valid && c.dev h.dpos == s.ident.device then some (.par (c.parUnit h.stripe h.j))
  else if s.standInFor c l h.stripe (c.k + h.j) then some (.side (c.k + h.j))
  else none

/-! ## Holding lighters (R89) -/

/-- Hold an arrived lighter in its berth; one without a berth stays in the receive buffer, its credits unreturned (R308). -/
def State.holdLighter (s : State) (l : Nat) (f : Frame) (why : HoldWhy) : State :=
  let s1 := if why == .berth then s.rxTake l f else s
  s1.modLquay l (fun q => { q with conv := { q.conv with heldL := q.conv.heldL ++ [{ frame := f, why := why, since := s.clock }] } })

/-- The P3 berth of an arrived lighter (R80, R308). -/
def State.intakeBerth (s : State) (l : Nat) (f : Frame) : State × Bool :=
  if s.hasBerth l .intake f.intakeWork then (s, true) else s.berthAlloc l 3 .intake f.intakeWork .wait

/-- Whether a stream reset sent at a relief is unanswered: until the stripes to anchor are known nothing is applied (R93). -/
def State.resetPending (s : State) (l : Nat) : Bool := (s.lquay l).conv.resets.any (fun r => r.restore.isEmpty && r.mark.isNone)

/-! ## Applying (R73, R80, R96, R108) -/

/-- Whether this device's piece of a stripe is being rebuilt: its position is under salvage, or a pass rebuilds it. -/
def State.underRebuild (s : State) (l : Nat) (c : Convoy) (st : Nat) : Bool :=
  s.salvaging c.idx || (match s.passOf l c.idx st with
    | some p => !p.audit && p.lost.contains (c.role st)
    | none => false)

/-- What R154 says of a copy to a position under salvage: apply, absorb or hold. -/
inductive Rule154 where
  | apply | absorb | hold
  deriving DecidableEq, Repr

/-- The row of R154 for a copy to a piece not rebuilt. Until its FROZEN comes a data helper assigns none of the unit's copies, so what comes
from it before lies below its MARK. DESIGN CHOICE (log 103): a copy of a data member no pass of this device has asked is held, for it has no
MARK. -/
def State.absorbRule (s : State) (l : Nat) (c : Convoy) (h : LHdr) (src : Nat) : Rule154 :=
  match s.passOf l c.idx h.stripe with
  | none => .absorb
  | some p =>
    match p.frozen.find? (fun e => e.1 == src) with
    | none => if p.home == s.ident.device && !p.helpers.any (fun r => r < c.k && s.helperDev c l h.stripe r == src) then .hold else .absorb
    | some e => if Seq.later e.2 (BitVec.ofNat 32 h.lseq) then .absorb else .hold

/-- The row of R154 for a copy. -/
def State.rule154 (s : State) (l : Nat) (c : Convoy) (h : LHdr) (src : Nat) : Rule154 :=
  if !s.underRebuild l c h.stripe then .apply
  else if (s.lquay l).salv.units.contains (c.idx, c.pieceNo l h.stripe) || s.rebuilding l c.idx (c.pieceNo l h.stripe) 32 then .apply
  else s.absorbRule l c h src

/-- The same for a piece kept in ballast: applied once it is built (R166, R179). -/
def State.sideRule (s : State) (l : Nat) (c : Convoy) (h : LHdr) (r src : Nat) : Rule154 :=
  if (s.xpar.lines.find (c.idx, l, h.stripe, r, 0)).isSome then .apply else s.absorbRule l c h src

/-- Acknowledge a lighter. -/
def State.ackLighter (s : State) (l : Nat) (f : Frame) (h : LHdr) (status : Nat) : State :=
  s.sendAck l f.src h.job status h.lseq

/-- Absorb a copy: marked applied, answered APPLIED, nothing written. -/
def State.absorb (s : State) (l : Nat) (f : Frame) (h : LHdr) : State :=
  (s.markIn l f.src (BitVec.ofNat 32 h.lseq)).ackLighter l f h 0

/-- Take the parity snapshots a step needs of these lines; the flag is false where space is short (R108, R110). -/
def State.snapLines (s : State) (l : Nat) (c : Convoy) (h : LHdr) (e : Nat) (lns : List Nat) : State × Bool :=
  let g := (s.port l).log
  if s.lpar l .snapParity != 1 then (s, true) else
  match g.segOf h.step with
  | none => (s, true)
  | some sg =>
    let need := lns.filter (fun ln => !g.hasSnap sg.slot c.idx e ln)
    if sg.state == 4 || need.isEmpty then (s, true) else
    let w := s.logClaim l h.step (136 * need.length)
    if !w.2 then w else
    (foldS need (fun ln s =>
      let s1 := s.logAppend l h.step (.snap c.idx h.j e ln (s.getLine l (c.parLine l e ln))) .none
      s1.logSnapBit l sg.slot (s.parityLineNo l c.idx e ln)) w.1, true)

/-- Read an arrived lighter from its berth for the coder (R312): a failed access, or an error of the coder (R345), applies and acknowledges nothing;
a line that fails its check or carries poison is answered CHECK_FAIL (R334). -/
def State.intakeUse (s : State) (l : Nat) (f : Frame) (h : LHdr) (n : Nat) : State × Bool :=
  let op := BerthOp.access 0 (128 * n)
  let u := s.berthUse l .intake f.intakeWork op
  if u.2 then
    let e := u.1.residueErr l 2 h.stripe
    (e.1, !e.2)
  else if (s.berthBad l .intake f.intakeWork op).isSome then u else (u.1.ackLighter l f h 4, false)

/-- Apply the lines of a lighter to a parity unit: parity ^= g(j, i) ⊗ Δ with its check-shadow entry; APPLIED follows the
channel port's acceptance of every line (R73, R84). A berth access that fails applies and acknowledges nothing (R312). -/
def State.applyPar (s : State) (l : Nat) (f : Frame) (h : LHdr) (c : Convoy) (e : Nat) (ds : List (Nat × Line)) : State :=
  let u := s.intakeUse l f h ds.length
  if !u.2 then u.1 else
  let s := u.1
  let id := (s.lquay l).conv.nextId
  let s0 := s.modLquay l (fun q => { q with conv := { q.conv with nextId := id + 1 } })
  let s1 := foldS ds (fun d s =>
    let a := c.parLine l e d.1
    let x := s.getLine l a ^^^ gfScale (gen h.j h.didx) d.2
    (s.putLine l a x (.parity id)).shadowPut l (c.parShadow l e) d.1 (lineCrc x)) s0
  let s2 := ((s1.shadowFlush l (c.parShadow l e)).markIn l f.src (BitVec.ofNat 32 h.lseq)).countL l 0x05 1
  if ds.isEmpty then s2.ackLighter l f h 0 else
  s2.modLquay l (fun q => { q with packs := q.packs ++ [{ id := id, left := ds.length, dev := f.src, quay := l, job := h.job, lseq := BitVec.ofNat 32 h.lseq }] })

/-- Apply the lines to a piece kept in ballast: extra parity or a stand-in (R166, R179), through the berth (R312). -/
def State.applySide (s0 : State) (l : Nat) (f : Frame) (h : LHdr) (c : Convoy) (r : Nat) (ds : List (Nat × Line)) : State :=
  let u := s0.intakeUse l f h ds.length
  if !u.2 then u.1 else
  let s := u.1
  let j := if r == c.n then c.m else r - c.k
  let s1 := foldS ds (fun d s =>
    let k := (c.idx, l, h.stripe, r, d.1)
    { s with xpar := { s.xpar with lines := s.xpar.lines.set k (s.xpar.lines.get 0 k ^^^ gfScale (gen j h.didx) d.2) } }) s
  ((s1.markIn l f.src (BitVec.ofNat 32 h.lseq)).countL l 0x05 1).ackLighter l f h 0

/-- Whether a stripe is being anchored at this holder. -/
def State.anchoring (s : State) (l c st : Nat) : Bool := (s.lquay l).conv.anch.any (fun a => a.convoy == c && a.stripe == st)

/-- Whether a step was aborted here after it started. -/
def State.wasAborted (s : State) (no : Nat) : Bool := decide (s.steps.moored < no) && s.steps.aborts.get 0 no != 0

/-- Whether the holder has not yet opened a step: neither running here nor finished here by mooring or by an abort (R108). -/
def State.unopened (s : State) (no : Nat) : Bool :=
  decide (s.steps.last < no) && !s.wasAborted no && !s.steps.recs.any (fun r => r.no == no)

/-- A delta lighter past its checks, in its berth: held, absorbed, or applied whole (R80, R89, R108, R154). Lines of zero delta touch no
parity (R73). -/
def State.lighterLand (s0 : State) (l : Nat) (f : Frame) (h : LHdr) (p : Land) (all : List (Nat × Line)) : State :=
  let b := s0.intakeBerth l f
  if !b.2 then b.1.holdLighter l f .berth else
  let s := b.1.berthPut l .intake f.intakeWork (all.map (·.2))
  let ds := all.filter (fun d => d.2 != 0)
  let c := s.convoy h.convoy
  if s.anchoring l c.idx h.stripe then s.holdLighter l f .anchoring else
  match p with
  | .side r =>
    match s.sideRule l c h r f.src with
    | .absorb => s.absorb l f h
    | .hold => s.holdLighter l f .pass
    | .apply => s.applySide l f h c r ds
  | .par e =>
    match s.rule154 l c h f.src with
    | .absorb => s.absorb l f h
    | .hold => s.holdLighter l f .pass
    | .apply =>
      if s.lpar l .snapParity == 1 && s.unopened h.step then s.holdLighter l f .segment else
      let rdy := foldS ds (fun d x => let r := x.1.holdReady l (c.parLine l e d.1); (r.1, x.2 && r.2)) (s, true)
      if !rdy.2 then rdy.1.holdLighter l f .page else
      let s0 := rdy.1
      if ds.any (fun d => !s0.lineSound l (c.parLine l e d.1) (c.parShadow l e) d.1) then
        let s1 := s0.startAnchor l c.idx h.stripe h.j .lost
        s1.holdLighter l f (if s1.anchoring l c.idx h.stripe then .anchoring else .pass)
      else
        let w := s0.snapLines l c h e (ds.map (·.1))
        if w.2 then w.1.applyPar l f h c e ds else w.1.holdLighter l f .space

/-- The lines a frame's body gives, when its length and every DCRC agree (R80). -/
def lighterBody (f : Frame) (h : LHdr) : Option (List (Nat × Line)) :=
  if f.len != 40 + h.bodyLen then none else decBody h.mask (f.pkt >>> 320)

/-- Whether a restore answers a copy DUPLICATE (R127). -/
def State.restored (s : State) (l : Nat) (h : LHdr) (src : Nat) : Bool :=
  (s.lquay l).conv.marks.any (fun m => m.src == src && m.convoy == h.convoy && m.steps.contains h.step &&
    (m.stripes.isEmpty || m.stripes.contains h.stripe) && Seq.later m.mark (BitVec.ofNat 32 h.lseq))

/-- The stream checks of R82 to R84 of a packet of TYPE 0x1 or 0x2: older and newer epochs, membership, window, duplicates;
`k` acts on a copy to be applied. -/
def State.streamChecks (s : State) (l : Nat) (f : Frame) (h : LHdr) (member : Bool) (k : State → State) : State :=
  let i := s.inStream l f.src
  let x : Seq := BitVec.ofNat 32 h.lseq
  if h.epoch < s.job.epoch then s.ackLighter l f h 2
  else if s.job.epoch < h.epoch then s.ackLighter l f h 3
  else if !member then s.ackLighter l f h 5
  else if i.beyond x then
    let s1 := (s.modLquay l (fun q => { q with conv := { q.conv with inS := q.conv.inS.set f.src { i with errLogged := true } } })).pktDrop l
    if i.errLogged then s1 else s1.evL l .lighterSeq []
  else if i.has x then s.ackLighter l f h 1
  else if s.restored l h f.src then (s.markIn l f.src x).ackLighter l f h 1
  else k s

/-- A delta lighter of the active job (R84, R89); one that comes before the stream resets of a relief are answered waits (R93). -/
def State.lighterJob (s : State) (l : Nat) (f : Frame) (h : LHdr) : State :=
  let p := s.landing l h
  if s.resetPending l then s.holdForJob l h.job f else
  s.streamChecks l f h p.isSome (fun s =>
    match lighterBody f h, p with
    | none, _ => s.ackLighter l f h 4
    | some ds, some p => s.lighterLand l f h p ds
    | some _, none => s)

/-- PARITY_DELTA_LIGHTER at its holder: HCRC first, then the gate of its job (R80, R84). -/
def State.lighterIn (s : State) (l : Nat) (f : Frame) : State :=
  let h := LHdr.dec f.pkt
  if !crcOk 40 (f.pkt % 2 ^ 320) then s.ackLighter l f h 4
  else (s.jobPkt l h.job f.src f (fun s => s.lighterJob l f h)).berthSync l

/-- Let held lighters go that satisfy `p`: each is handled as if newly arrived (R91 stage 6). -/
def State.releaseHeld (s : State) (l : Nat) (p : HeldL → Bool) : State :=
  let go := (s.lquay l).conv.heldL.filter p
  foldS go (fun x s => State.lighterIn (s.modLquay l (fun q => { q with conv := { q.conv with heldL := removeFirst (· == x) q.conv.heldL } })) l x.frame) s

/-- Whether a lighter held for a pass is one the rows of R154 no longer hold: what an anchoring given up had held is absorbed until the FROZEN of
its source (R94, R154). -/
def State.passLets (s : State) (l : Nat) (x : HeldL) : Bool :=
  let h := LHdr.dec x.frame.pkt
  let c := s.convoy h.convoy
  x.why == .pass && (match s.landing l h with
    | some (.par _) => s.rule154 l c h x.frame.src != .hold && (s.passOf l c.idx h.stripe).isSome
    | some (.side r) => s.sideRule l c h r x.frame.src != .hold && (s.passOf l c.idx h.stripe).isSome
    | none => false)

/-- Held lighters whose reason has passed go on: their segment is open, space or a page or a berth has come. -/
def State.retryHeld (s : State) (l : Nat) : State :=
  let v := (s.lquay l).conv
  let seg := v.heldL.filter (fun x => x.why == .segment && !s.unopened x.step)
  let oth := v.heldL.filter (fun x => x.why == .space || x.why == .page || (x.why == .berth && s.hasBerth l .intake x.frame.intakeWork) || s.passLets l x)
  let s0 := foldS (oth.filter (fun x => x.why == .berth)) (fun x s => s.rxReturn l x.frame) s
  s0.releaseHeld l (fun x => seg.contains x || oth.contains x)

/-- A parity write of an applied lighter is acknowledged; with the last the lighter is APPLIED (R84). -/
def State.parityAcked (s : State) (l id : Nat) : State :=
  match (s.lquay l).packs.find? (fun a => a.id == id) with
  | none => s
  | some a =>
    if 1 < a.left then s.modLquay l (fun q => { q with packs := mapIf (fun x => x.id == id) (fun x => { x with left := x.left - 1 }) q.packs })
    else ((s.modLquay l (fun q => { q with packs := q.packs.filter (fun x => x.id != id) })).sendAck l a.dev a.job 0 a.lseq.toNat).berthSync l

/-! ## Anchoring at the holder (R91, R94) -/

/-- Σ_i g(j, i) ⊗ piece_i, line by line. -/
def anchorLine (j : Nat) (as : List AnchorAns) (ln : Nat) : Line :=
  as.foldl (fun x a => x ^^^ gfScale (gen j a.didx) (a.piece.getD ln 0)) 0

/-- Send ANCHOR_DONE for a stripe; stripe all ones lets a frozen stream resume (R84, R93, log 18). -/
def State.sendAnchorDone (s : State) (l dev stripe : Nat) : State :=
  s.sendPkt l 2 dev l 32 (LAck.enc { type := 8, status := 6, quay := l, holder := s.ident.device, job := s.job.tag,
                                     epoch := s.job.epoch, lseq := stripe })

/-- Sources of a reset none of whose stripes is still anchoring resume their streams (R93). -/
def State.resumeStreams (s : State) (l : Nat) : State :=
  let v := (s.lquay l).conv
  let ready := v.resets.filter (fun r => r.mark.isSome && r.restore.isEmpty && r.stripes.all (fun x => !s.anchoring l x.1 x.2) &&
    v.resets.all (fun y => y.mark.isSome || !y.restore.isEmpty))
  let s1 := s.modLquay l (fun q => { q with conv := { q.conv with resets := q.conv.resets.filter (fun r => !ready.contains r) } })
  foldS ready (fun r s => s.sendAnchorDone l r.dev 0xFFFFFFFF) s1

/-- Every answer of an anchoring is in: write the parity, mark the retired LSEQs, release the held lighters and tell the
members (R91 stages 4 to 7). Where the berths of the answers cannot be reached the anchoring is repeated, its requests sent again at their
timeout (R312, R376); repeated too often, its stripe counts as lost (R377). -/
def State.finishAnchor (s : State) (l : Nat) (a : Anchor) : State :=
  let c := s.convoy a.convoy
  let w := a.convoy * 2 ^ 32 + a.stripe
  let u := s.berthUse l .anchor w (.access 0 4096)
  if !u.2 then
    let r := u.1.restart ((u.1.phys l).getD 0) 3 a.stripe a.restarts
    let again := mapIf (· == a) (fun (a : Anchor) => { a with answers := [], restarts := a.restarts + 1 })
    let s1 := r.1.modLquay l (fun q => { q with conv := { q.conv with anch := if r.2 then q.conv.anch.filter (· ≠ a) else again q.conv.anch } })
    (if r.2 then s1.stripeLost l a.convoy 1 else s1).berthFreeWork l .anchor w
  else
  let s := u.1
  let s0 := s.modLquay l (fun q => { q with conv := { q.conv with anch := q.conv.anch.filter (· ≠ a) } })
  let s1 :=
    if a.cause == .xparity then foldS (List.range 32) (fun ln s =>
      { s with xpar := { s.xpar with lines := s.xpar.lines.set (c.idx, l, a.stripe, c.n, ln) (anchorLine a.j a.answers ln) } }) s0
    else
      let e := c.parUnit a.stripe a.j
      let no := c.pieceNo l a.stripe
      let s' := foldS (List.range 32) (fun ln s =>
        let x := anchorLine a.j a.answers ln
        (s.putLine l (c.parLine l e ln) x (.rebuilt c.idx no none)).shadowPut l (c.parShadow l e) ln (lineCrc x)) s0
      (s'.shadowRebuilt l c a.stripe none).rebuiltDone l c.idx no none
  let s2 := foldS a.answers (fun x s => foldS x.ret (fun q s => s.markIn l x.hd.src q) s) s1
  let s3 := s2.releaseHeld l (fun x => x.why == .anchoring && x.convoy == a.convoy && x.stripe == a.stripe)
  let s4 := foldS a.answers (fun x s => s.sendAnchorDone l x.hd.src a.stripe) s3
  (s4.berthFreeWork l .anchor w).resumeStreams l

/-- Take an anchor answer that has its berth. -/
def State.anchorTake (s : State) (l : Nat) (a : Anchor) (x : AnchorAns) : State :=
  let a' := { a with answers := a.answers ++ [x] }
  let s1 := (s.berthPut l .anchor (a.convoy * 2 ^ 32 + a.stripe) x.piece).modLquay l (fun q => { q with conv := { q.conv with anch := mapIf (fun y => y == a) (fun _ => a') q.conv.anch } })
  if a.asked.all (fun d => a'.answers.any (fun y => y.hd.src == d)) then s1.finishAnchor l a' else s1

/-- The anchoring an answer is for. -/
def State.anchorOf (s : State) (l : Nat) (x : AnchorAns) : Option Anchor :=
  (s.lquay l).conv.anch.find? (fun a => a.convoy == x.hd.convoy && a.stripe == x.stripe && a.j == x.j)

/-- Answers that waited for their berths and have them now are taken; one whose anchoring has ended is late (R308, R310). -/
def State.lateAnswers (s : State) (l : Nat) : State :=
  foldS (s.lquay l).conv.lateAns (fun x s =>
    let drop := fun (s : State) => s.modLquay l (fun q => { q with conv := { q.conv with lateAns := removeFirst (· == x) q.conv.lateAns } })
    match s.anchorOf l x with
    | none => (drop s).countL l 0x0D 1
    | some a =>
      let n := ((s.lquay l).pools.live.filter (fun b => b.owner == .anchor && b.work == a.convoy * 2 ^ 32 + a.stripe)).length
      if n ≤ a.answers.length then s else (drop s).anchorTake l a x) s

/-- An anchor answer (R91 stage 3); a piece that fails its LCRC is not taken and the request is sent again at its timeout. An answer waits for
its berth (R308). -/
def State.anchorAnswerIn (s : State) (l : Nat) (x : AnchorAns) : State :=
  match s.anchorOf l x with
  | none => s.countL l 0x0D 1
  | some a =>
    let late := (s.lquay l).conv.lateAns.any (fun y => y.hd == x.hd && y.stripe == x.stripe && y.j == x.j)
    if !a.asked.contains x.hd.src || a.answers.any (fun y => y.hd.src == x.hd.src) || late then s.countL l 0x0D 1
    else if x.piece.map lineCrc != x.lcrc || x.piece.length != 32 then
      let i := ((x.piece.map lineCrc).zip x.lcrc).findIdx? (fun e => e.1 != e.2) |>.getD 0
      s.sigL l { cls := 5, unit := 0xC, addr := x.stripe, expected := x.lcrc.getD i 0, observed := lineCrc (x.piece.getD i 0), detail := i, depth := 1 }
    else
      let b := s.berthAlloc l 3 .anchor (x.hd.convoy * 2 ^ 32 + x.stripe) .wait
      if b.2 then b.1.anchorTake l a x
      else b.1.modLquay l (fun q => { q with conv := { q.conv with lateAns := q.conv.lateAns ++ [x] } })

/-- A stream reset, which is an anchor request (R93), is sent again as one where no answer has come within LIGHTER_ACK_T (R94, log 91). -/
def State.resetTimeouts (s : State) (l : Nat) : State :=
  let due := (s.lquay l).conv.resets.filter (fun r => r.mark.isNone && r.since.any (fun t => s.passed t (s.lpar l .lighterAckT)))
  foldS due (fun r s =>
    let r' := { r with since := none, tries := r.tries + 1 }
    let s1 := s.modLquay l (fun q => { q with conv := { q.conv with resets := mapIf (fun x => x == r) (fun _ => r') q.conv.resets } })
    let s2 := if r'.tries == 4 then s1.evL l .lighterNoAck [(20, r.dev)] else s1
    s2.sendTx l 1 (.anchorReq r.dev { hd := s2.hd r.convoy l, stripe := 0xFFFFFFFF, j := 0, restore := r.restore, only := r.only })) s

/-- An anchoring given up for salvage (R94). What its answers retired is in the pieces the pass reads: those LSEQs count as applied, and the members
that answered seal the copies on ANCHOR_DONE (R91, R92). DESIGN CHOICE (log 126): the spec does not say when they do. -/
def State.anchorGiveUp (s : State) (l : Nat) (a : Anchor) : State :=
  if (s.passOf l a.convoy a.stripe).isSome then s else
  let s1 := foldS a.answers (fun x s => foldS x.ret (fun q s => s.markIn l x.hd.src q) s) s
  foldS a.answers (fun x s => s.sendAnchorDone l x.hd.src a.stripe) (s1.anchorToPass l a)

/-- ANCHOR_TIMEOUT: requests unanswered for LIGHTER_ACK_T are sent again; the fourth timeout in a row logs LIGHTER_NO_ACK
once, naming the destination (R94, R85); an answer that waits for a berth has come (R310). One that has come to miss a member is rebuilt by salvage (R94). -/
def State.anchorTimeouts (s0 : State) (l : Nat) : State :=
  let t := s0.lpar l .lighterAckT
  let s := s0.resetTimeouts l
  foldS ((s.lquay l).conv.anch.filter (fun a => a.since.any (fun x => s.passed x t))) (fun a s =>
    if s.anchorMissing a l then s.anchorGiveUp l a else
    let late := fun (d : Nat) => (s.lquay l).conv.lateAns.any (fun y => y.hd.src == d && y.hd.convoy == a.convoy && y.stripe == a.stripe && y.j == a.j)
    let miss := a.asked.filter (fun d => !a.answers.any (fun y => y.hd.src == d) && !late d)
    if miss.isEmpty then s else
    let a' := { a with since := none, unsent := miss.length, tries := a.tries + 1 }
    let s1 := s.modLquay l (fun q => { q with conv := { q.conv with anch := mapIf (fun y => y == a) (fun _ => a') q.conv.anch } })
    foldS miss (fun d s =>
      let s' := if a'.tries == 4 then s.evL l .lighterNoAck [(20, d)] else s
      s'.sendTx l 1 (.anchorReq d { hd := s'.hd a.convoy l, stripe := a.stripe, j := a.j, restore := [] })) s1) s

/-- A data member of an anchoring stripe is fenced before it answers: the parity is rebuilt by salvage from the remaining
pieces (R94). -/
def State.anchorFenced (s : State) (l dev : Nat) : State :=
  foldS ((s.lquay l).conv.anch.filter (fun a => a.asked.contains dev && !a.answers.any (fun y => y.hd.src == dev))) (fun a s =>
    s.anchorGiveUp l a) s

/-- A pass that rebuilt this device's piece is over: the copies it held go on (R154). -/
def State.passReleased (s : State) (l c st : Nat) : State :=
  s.releaseHeld l (fun x => x.why == .pass && x.convoy == c && x.stripe == st)

/-! ## Parking of lower classes (R56, R58) -/

/-- The partial sums background salvage holds on a quay: pieces that have come for its passes, and sums of its parts in chains. -/
def State.partialSums (s : State) (l : Nat) : List Line :=
  ((s.lquay l).salv.passes.filter Pass.background).flatMap (fun p => p.pieces.flatMap (·.2)) ++
    (s.lquay l).conv.parts.flatMap (fun x => ((x.mine.getD []) ++ (x.got.getD [])).flatten)

/-- Background salvage of a quay parks: what its SRAM berths hold, its partial sums, moves to the memory tier with check values (R58). -/
def State.salvPark (s : State) (l : Nat) : State :=
  if (s.lquay l).salv.parked then s else
  let sram := fun (b : Berth) => b.owner == .background && !b.mem
  let s1 := s.modLquay l (fun q => { q with salv := { q.salv with parked := true } })
  let s2 := foldS ((s.lquay l).pools.live.filter sram) (fun b s => s.berthSpill l b.pool .spill spillWork (s.partialSums l)) s1
  s2.berthFree l sram (fun r => r.owner == .background)

/-- The audits of a quay park: what was being read is read again, from its saved position (R60). -/
def State.dredgePark (s : State) (l : Nat) : State :=
  let ps := (s.lquay l).salv.passes.filter (·.audit)
  let s1 := s.modLquay l (fun q => { q with
    salv := { q.salv with passes := q.salv.passes.filter (fun p => !p.audit) },
    dredge := { q.dredge with parked := true, wait := [], retry := q.dredge.retry ++ ps.map (fun p => (p.convoy, p.stripe)) ++ q.dredge.wait } })
  foldS ps (fun p s => s.passReleased l p.convoy p.stripe) (s1.berthSync l)

/-- Change the cold flush under way. -/
def State.modFlush (s : State) (f : Flush → Flush) : State := { s with locker := { s.locker with flush := s.locker.flush.map f } }

/-- The cold flush parks: its SRAM berths go, and its cursor, which is all it saves, stays (R56). -/
def State.flushPark (s : State) : State :=
  foldS s.lquays (fun l s => s.berthFree l (fun b => b.owner == .flush && !b.mem) (fun r => r.owner == .flush)) (s.modFlush (fun f => { f with parked := true }))

/-- Before work of class `cls` asks for a berth of a pool whose SRAM tier is full, every lower class that holds an SRAM berth there
parks (R56, R58). -/
def State.parkBelow (s : State) (l pool cls : Nat) : State :=
  let p := (s.lquay l).pools
  let holds := fun (o : Owner) => p.live.any (fun b => b.owner == o && b.pool == pool && !b.mem)
  if (p.freeIdx pool false (s.berthSramN l pool)).isSome then s else
  let s1 := if cls < 3 && holds .background then s.salvPark l else s
  let s2 := if cls < 4 && holds .flush then s1.flushPark else s1
  if cls < 5 && holds .dredge then s2.dredgePark l else s2

/-- Whether a quay's audits hold or wait for the convoy coder. -/
def State.auditing (s : State) (l : Nat) : Bool := (s.lquay l).salv.passes.any (·.audit) || !(s.lquay l).dredge.wait.isEmpty

/-- Whether background salvage of a quay, which does not stand parked, holds its coder. -/
def State.coderBusy (s : State) (l : Nat) : Bool := !(s.lquay l).salv.parked && (s.lquay l).salv.passes.any Pass.background

/-- Ask for the berth of a batch of background salvage, once (R308). Salvage needs the coder: audits that hold it park (R56). -/
def State.salvClaim (s : State) (l : Nat) : State :=
  let s := if s.auditing l then s.dredgePark l else s
  if s.hasBerth l .background salvWork || (s.lquay l).pools.queue.any (fun r => r.owner == .background) then s
  else ((s.parkBelow l 5 3).berthAlloc l 5 .background salvWork .wait).1

/-! ## Stream resets (R93, R127) -/

/-- The source freezes its stream and answers with MARK and the stripes of its unacknowledged copies; for a restore it
seals what has no LSEQ, and sends no undo copies of the steps for a stripe restored alone (R93, R127). A reset without a restore tells of a relieved quay: passes it helped are repeated (R159). -/
def State.resetIn (s : State) (l : Nat) (a : AnchorReq) : State :=
  let d := a.hd.src
  let v := (s.lquay l).conv
  let o := v.outS.get {} d
  let g := fun (x : Lighter) => x.isDelta && x.copies.any (fun c => c.dev == d && (c.st == .sent || c.st == .retired))
  let stripes := ((v.sent.filter g).map (fun x => (x.convoy, x.stripe))).eraseDups
  let helped := (s.lquay l).salv.passes.filter (fun p => p.home == s.ident.device && p.helpers.any (fun r => s.helperDev (s.convoy p.convoy) l p.stripe r == d))
  let sealC := fun (c : Copy) => if c.dev == d && c.st == .waiting then { c with st := .acked } else c
  let s1 := s.modLquay l (fun q => { q with conv := { q.conv with outS := q.conv.outS.set d { o with frozen := true },
                                                                  sent := mapIf (fun x => x.isDelta && a.restore.contains x.step && x.convoy == a.hd.convoy && (a.only.isNone || a.only == some x.stripe)) (fun x => { x with copies := x.copies.map sealC }) q.conv.sent } })
  let s1' := foldS a.restore (fun n s => s.modStep n (fun r => { r with snapped := a.only.toList.map (fun st => (a.hd.convoy, st)) ++ r.snapped })) s1
  let s2 := if a.restore.isEmpty then foldS helped (fun p s => s.passAgain l p []) s1' else s1'
  (s2.reapSealed l).sendTx l 2 (.resetAns d { hd := s1.hd a.hd.convoy l, mark := o.next, stripes := stripes })

/-- Send a stream reset to a device. -/
def State.sendReset (s : State) (l c dev : Nat) (steps : List Nat) (only : Option Nat := none) : State :=
  let s1 := s.modLquay l (fun q => { q with conv := { q.conv with resets := q.conv.resets ++ [{ dev := dev, convoy := c, restore := steps, only := only }] } })
  s1.sendTx l 1 (.anchorReq dev { hd := s1.hd c l, stripe := 0xFFFFFFFF, j := 0, restore := steps, only := only })

/-- The members of a convoy other than this device that are there to answer. -/
def State.peersOf (s : State) (c : Convoy) : List Nat :=
  ((s.otherPos c).map c.dev).filter (fun d => d != s.ident.device && !s.isFenced d)

/-- Stream resets to every source stream of a position (R93). -/
def State.resetAll (s : State) (l : Nat) : State :=
  foldS s.convoys (fun c s => foldS (s.peersOf c) (fun d s =>
    if (s.lquay l).conv.resets.any (fun r => r.dev == d && r.restore.isEmpty) then s else s.sendReset l c.idx d []) s) s

/-- Write back the snapshots of a convoy's parity lines in the aborting steps, the oldest step's first (R127). -/
def State.writeSnaps (s : State) (l c : Nat) (steps : List Nat) (stripe : Option Nat) : State :=
  let cv := s.convoy c
  let snaps := (s.port l).log.entries.filterMap (fun x => match x.body with
    | .snap c' _ e ln old => if c' == c && steps.contains x.step && ((s.port l).log.segOf x.step).any (fun g => g.slot == x.slot) && (stripe.isNone || stripe == some (cv.parStripe cv.pos e).1)
        then some (x.step, e, ln, old) else none
    | _ => none)
  let first := snaps.filter (fun x => !snaps.any (fun y => y.2.1 == x.2.1 && y.2.2.1 == x.2.2.1 && decide (y.1 < x.1)))
  let s1 := foldS first (fun x s =>
    (s.putLine l (cv.parLine l x.2.1 x.2.2.1) x.2.2.2 .own).shadowPut l (cv.parShadow l x.2.1) x.2.2.1 (lineCrc x.2.2.2)) s
  s1.shadowFlushAll l

/-- Every answer to a restore reset is in: write the snapshots back, keep the MARKs, let the sources resume (R127). -/
def State.restoreGo (s : State) (l c : Nat) (steps : List Nat) (only : Option Nat := none) : State :=
  let mine := (s.lquay l).conv.resets.filter (fun r => r.convoy == c && r.restore == steps && r.only == only)
  if mine.any (fun r => r.mark.isNone) then s else
  let marks := mine.map (fun r => ({ src := r.dev, convoy := c, steps := steps, stripes := only.toList, mark := r.mark.getD 0 } : RestoreMark))
  let s1 := s.modLquay l (fun q => { q with conv := { q.conv with resets := q.conv.resets.filter (fun r => !mine.contains r), marks := q.conv.marks ++ marks } })
  foldS mine (fun r s => s.sendAnchorDone l r.dev 0xFFFFFFFF) (s1.writeSnaps l c steps only)

/-- Start the snapshot restore of a convoy on a position for the aborting steps: a reset marked as a restore to every source
stream of the convoy, or, without snapshots, the convoy is lost (R127); `only`: the one stripe a member has asked it for. -/
def State.restoreConvoy (s : State) (l c : Nat) (steps : List Nat) (only : Option Nat := none) : State :=
  if s.lpar l .snapParity != 1 then s.stripeLost l c else
  if (s.lquay l).conv.resets.any (fun r => r.convoy == c && r.restore == steps && r.only == only) then s else
  let s1 := foldS (s.peersOf (s.convoy c)) (fun d s => s.sendReset l c d steps only) s
  s1.restoreGo l c steps only

/-- Every source has answered the resets of a relief: the listed stripes are anchored, and streams without any resume (R93). -/
def State.resetsDone (s : State) (l : Nat) : State :=
  let v := (s.lquay l).conv
  if v.resets.any (fun x => x.mark.isNone && x.restore.isEmpty) then s else
  let union := (v.resets.flatMap (·.stripes)).eraseDups
  (foldS union (fun x s =>
    let c := s.convoy x.1
    if c.role x.2 < c.k then s else s.startAnchor l x.1 x.2 (c.role x.2 - c.k) .relief) s).resumeStreams l

/-- A fenced source answers no reset: what waited for it goes on (R93, R127, R154). -/
def State.resetFenced (s : State) (l dev : Nat) : State :=
  let gone := (s.lquay l).conv.resets.filter (fun r => r.dev == dev)
  if gone.isEmpty then s else
  let s1 := s.modLquay l (fun q => { q with conv := { q.conv with resets := q.conv.resets.filter (fun r => r.dev != dev) } })
  let s2 := foldS (gone.filter (fun r => !r.restore.isEmpty)) (fun r s => s.restoreGo l r.convoy r.restore r.only) s1
  if gone.any (fun r => r.restore.isEmpty) then s2.resetsDone l else s2

/-- A stream-reset answer (R93, R127). -/
def State.resetAnswerIn (s : State) (l : Nat) (a : ResetAns) : State :=
  match (s.lquay l).conv.resets.find? (fun r => r.dev == a.hd.src && r.mark.isNone) with
  | none => s.countL l 0x0D 1
  | some r =>
    let r' := { r with mark := some a.mark, stripes := a.stripes }
    let s1 := s.modLquay l (fun q => { q with conv := { q.conv with resets := mapIf (fun x => x == r) (fun _ => r') q.conv.resets } })
    if !r.restore.isEmpty then s1.restoreGo l r.convoy r.restore r.only else
    (s1.modLquay l (fun q => { q with conv := { q.conv with inS := q.conv.inS.set a.hd.src { base := a.mark } } })).resetsDone l

end Sys2Proof.Machine
end

