-- ==== Sys2Proof/Machine/Num.lean ====
section
/-! DEFINITION. Numbers: exact dyadic values, rounding (R192), element formats (R27), stochastic rounding (R194), decant
conversions (R301, R302) and block quantisation (R276). -/

namespace Sys2Proof.Machine

/-- An exact value (-1)^neg * m * 2^e. -/
structure Fp where
  neg : Bool
  m   : Nat
  e   : Int
  deriving DecidableEq, Repr

/-- An element's value. -/
inductive Val where
  | fin (x : Fp)
  | inf (neg : Bool)
  | nan
  deriving DecidableEq, Repr

/-- Bits of a number: 0 for 0. -/
def blen (m : Nat) : Nat := if m = 0 then 0 else Nat.log2 m + 1

/-- m shifted by an integer power of two, downwards truncating. -/
def shiftN (m : Nat) (d : Int) : Nat := if 0 ≤ d then m <<< d.toNat else m >>> (-d).toNat

/-- Zero and one. -/
def fpZero : Fp := { neg := false, m := 0, e := 0 }
def fpOne : Fp := { neg := false, m := 1, e := 0 }

/-- Exact sum; an exact zero is +0 unless both are -0. -/
def Fp.add (x y : Fp) : Fp :=
  let e := min x.e y.e
  let a : Int := if x.neg then -((x.m <<< (x.e - e).toNat : Nat) : Int) else (x.m <<< (x.e - e).toNat : Nat)
  let b : Int := if y.neg then -((y.m <<< (y.e - e).toNat : Nat) : Int) else (y.m <<< (y.e - e).toNat : Nat)
  let s := a + b
  if s = 0 then { neg := x.neg && y.neg, m := 0, e := 0 } else { neg := decide (s < 0), m := s.natAbs, e := e }

/-- Negation, exact product, magnitude. -/
def Fp.negate (x : Fp) : Fp := { x with neg := !x.neg }
def Fp.sub (x y : Fp) : Fp := x.add y.negate
def Fp.mul (x y : Fp) : Fp := { neg := x.neg != y.neg, m := x.m * y.m, e := x.e + y.e }
def Fp.abs (x : Fp) : Fp := { x with neg := false }

/-- Times 2^k. -/
def Fp.scale (x : Fp) (k : Int) : Fp := { x with e := x.e + k }

/-- Compare magnitudes. -/
def Fp.magLe (x y : Fp) : Bool :=
  let e := min x.e y.e
  decide (x.m <<< (x.e - e).toNat ≤ y.m <<< (y.e - e).toNat)

/-- Signed comparison x ≤ y. -/
def Fp.le (x y : Fp) : Bool :=
  let d := y.sub x
  d.m == 0 || !d.neg

/-- Round to nearest, ties to even, to a precision of `p` bits with least exponent `emin` of the last place. -/
def Fp.rne (p : Nat) (emin : Int) (x : Fp) : Fp :=
  let t := max (x.e + blen x.m - p) emin
  if t ≤ x.e then x else
  let d := (t - x.e).toNat
  let q := x.m >>> d
  let r := x.m % 2 ^ d
  let h := 2 ^ (d - 1)
  { neg := x.neg, m := if r > h || (r == h && q % 2 == 1) then q + 1 else q, e := t }

/-- Truncate to a precision of `p` bits. -/
def Fp.trunc (p : Nat) (emin : Int) (x : Fp) : Fp :=
  let t := max (x.e + blen x.m - p) emin
  if t ≤ x.e then x else { x with m := x.m >>> (t - x.e).toNat, e := t }

/-- Whether a value lies below 2^k. -/
def Fp.below (x : Fp) (k : Int) : Bool := x.m == 0 || decide (x.e + blen x.m ≤ k)

/-- binary32 and binary64 with round-to-nearest-even (R192); none beyond the range. -/
def rne32 (x : Fp) : Option Fp := let r := x.rne 24 (-149); if r.below 128 then some r else none
def rne64 (x : Fp) : Option Fp := let r := x.rne 53 (-1074); if r.below 1024 then some r else none

/-- A quotient to far more places than any rounding here looks at, with a sticky last bit; none for a zero divisor. -/
def Fp.div (x y : Fp) : Option Fp :=
  if y.m = 0 then none else
  let k := 70 + blen y.m
  let n := x.m <<< k
  some { neg := x.neg != y.neg, m := 2 * (n / y.m) + b2n (n % y.m != 0), e := x.e - y.e - k - 1 }

/-- Integer square root by bisection on bits: the largest r with r² ≤ n, bit `b` downwards. -/
def isqrtAux (n : Nat) : Nat → Nat → Nat
  | 0, r => r
  | b + 1, r => isqrtAux n b (if (r + 2 ^ b) * (r + 2 ^ b) ≤ n then r + 2 ^ b else r)

/-- The integer square root. -/
def isqrt (n : Nat) : Nat := isqrtAux n (blen n / 2 + 1) 0

/-- A square root with a sticky last bit; none for a negative value. -/
def Fp.sqrt (x : Fp) : Option Fp :=
  if x.m = 0 then some { x with m := 0 } else if x.neg then none else
  let k : Nat := 160 + (x.e % 2).toNat
  let n := x.m <<< k
  let r := isqrt n
  some { neg := false, m := 2 * r + b2n (r * r != n), e := (x.e - k) / 2 - 1 }

/-! ## Element formats (R27) -/

/-- A format: width, mantissa bits, bias, exponent bits; `kind` 0 IEEE, 1 E4M3 (only all ones is NaN), 2 finite only, 3
MXINT8. -/
structure EFmt where
  w    : Nat
  mb   : Nat
  eb   : Nat
  bias : Int
  kind : Nat
  deriving DecidableEq, Repr

/-- The element format of a stored format code; none for raw and reserved codes. -/
def efmt (code : Nat) : Option EFmt :=
  match code with
  | 1 => some { w := 32, mb := 23, eb := 8, bias := 127, kind := 0 }
  | 2 => some { w := 16, mb := 7, eb := 8, bias := 127, kind := 0 }
  | 3 => some { w := 16, mb := 10, eb := 5, bias := 15, kind := 0 }
  | 4 => some { w := 8, mb := 3, eb := 4, bias := 7, kind := 1 }
  | 5 => some { w := 8, mb := 2, eb := 5, bias := 15, kind := 0 }
  | 6 => some { w := 8, mb := 3, eb := 4, bias := 7, kind := 1 }
  | 7 => some { w := 8, mb := 2, eb := 5, bias := 15, kind := 0 }
  | 8 => some { w := 6, mb := 2, eb := 3, bias := 3, kind := 2 }
  | 9 => some { w := 6, mb := 3, eb := 2, bias := 1, kind := 2 }
  | 10 => some { w := 4, mb := 1, eb := 2, bias := 1, kind := 2 }
  | 11 => some { w := 8, mb := 0, eb := 0, bias := 0, kind := 3 }
  | _ => none

/-- Whether a format code is an MX format (R27). -/
def isMx (code : Nat) : Bool := decide (6 ≤ code) && decide (code ≤ 11)

/-- Decode an element exactly. -/
def EFmt.decode (f : EFmt) (v : Nat) : Val :=
  if f.kind == 3 then
    let i := signed 8 v
    .fin { neg := decide (i < 0), m := i.natAbs, e := -6 }
  else
    let sgn := v.testBit (f.w - 1)
    let ex := fld v (f.w - 2) f.mb
    let ma := v % 2 ^ f.mb
    if f.kind == 0 && ex == 2 ^ f.eb - 1 then (if ma == 0 then .inf sgn else .nan)
    else if f.kind == 1 && ex == 2 ^ f.eb - 1 && ma == 2 ^ f.mb - 1 then .nan
    else if ex == 0 then .fin { neg := sgn, m := ma, e := 1 - f.bias - f.mb }
    else .fin { neg := sgn, m := 2 ^ f.mb + ma, e := ex - f.bias - f.mb }

/-- Bits of the largest finite magnitude. -/
def EFmt.maxBits (f : EFmt) : Nat :=
  if f.kind == 3 then 127
  else if f.kind == 0 then (2 ^ f.eb - 2) * 2 ^ f.mb + (2 ^ f.mb - 1)
  else if f.kind == 1 then 2 ^ (f.w - 1) - 2
  else 2 ^ (f.w - 1) - 1

/-- The largest finite magnitude. -/
def EFmt.maxVal (f : EFmt) : Fp :=
  match f.decode f.maxBits with
  | .fin x => x
  | _ => fpZero

/-- Bits of an element's sign. -/
def EFmt.signBits (f : EFmt) (neg : Bool) : Nat := if neg then 2 ^ (f.w - 1) else 0

/-- Bits of a value the format represents exactly. -/
def EFmt.encExact (f : EFmt) (x : Fp) : Nat :=
  if x.m = 0 then f.signBits x.neg else
  let top := x.e + blen x.m - 1
  let emin := 1 - f.bias
  if top < emin then f.signBits x.neg + shiftN x.m (x.e - (emin - f.mb))
  else f.signBits x.neg + (top + f.bias).toNat * 2 ^ f.mb + (shiftN x.m (x.e - (top - f.mb))) % 2 ^ f.mb

/-- Round to nearest even into a format, saturating; answers whether it saturated. -/
def EFmt.rneSat (f : EFmt) (x : Fp) : Nat × Bool :=
  if f.kind == 3 then
    let r := x.rne 4096 (-6)
    let i := shiftN r.m (r.e + 6)
    if x.neg then (if 127 < i then (unsigned 8 (-127), true) else (unsigned 8 (-(i : Int)), false))
    else if 127 < i then (127, true) else (i, false)
  else
    let r := x.rne (f.mb + 1) (1 - f.bias - f.mb)
    (if r.magLe f.maxVal then f.encExact r else f.signBits x.neg + f.maxBits, !x.magLe f.maxVal)

/-- The canonical NaN of a format (R302). -/
def EFmt.nanBits (f : EFmt) : Nat :=
  if f.kind == 1 then 0x7F else if f.w == 8 then 0x7E else (2 ^ f.eb - 1) * 2 ^ f.mb + 2 ^ (f.mb - 1)

/-- Produce an expected format from a value (R301, R302); the flag says the element counts in DECANT_SAT. -/
def EFmt.produce (f : EFmt) : Val → Nat × Bool
  | .nan => (f.nanBits, false)
  | .inf neg => if f.kind == 1 then (f.signBits neg + 0x7E, true) else (f.signBits neg + (2 ^ f.eb - 1) * 2 ^ f.mb, false)
  | .fin x => f.rneSat x

/-! ## binary32 words -/

/-- FP32 format. -/
def f32Fmt : EFmt := { w := 32, mb := 23, eb := 8, bias := 127, kind := 0 }
def bf16Fmt : EFmt := { w := 16, mb := 7, eb := 8, bias := 127, kind := 0 }

/-- The finite value of FP32 or BF16 bits, none for NaN and infinities. -/
def finOf (f : EFmt) (v : Nat) : Option Fp :=
  match f.decode v with
  | .fin x => some x
  | _ => none
def f32 (v : Nat) : Option Fp := finOf f32Fmt v
def bf16 (v : Nat) : Option Fp := finOf bf16Fmt v

/-- FP32 bits of an exact FP32 value. -/
def f32Bits (x : Fp) : Nat := f32Fmt.encExact x

/-- FP32 bits of a value rounded to nearest even; beyond the range an infinity (IEEE 754). -/
def f32Round (x : Fp) : Nat :=
  match rne32 x with
  | some r => f32Bits r
  | none => f32Fmt.signBits x.neg + 0x7F800000

/-- FP32 bits truncated toward zero; beyond the range the maximum, with a mark (R206). -/
def f32Trunc (x : Fp) : Nat × Bool :=
  let t := x.abs.trunc 24 (-149)
  if t.below 128 then (f32Bits t, false) else (0x7F7FFFFF, true)

/-! ## Stochastic rounding (R194) -/

/-- sr_bf16. -/
def srBf16 (x : Fp) (u : Nat) : Nat :=
  if x.m = 0 then 0 else
  let a := x.abs
  let q := a.trunc 8 (-133)
  let ulp := max (a.e + blen a.m - 8) (-133)
  let d := a.sub q
  let f := shiftN d.m (d.e - ulp + 16)
  let q' : Fp := if u < f then q.add { neg := false, m := 1, e := ulp } else q
  let bits := if q'.below 128 then bf16Fmt.encExact q' else 0x7F7F
  bits + bf16Fmt.signBits x.neg

/-! ## Spans and lanes -/

/-- Elements of `w` bits from a little-endian number. -/
def elems (w n v : Nat) : List Nat := unpack (List.replicate n w) v

/-- The number of elements. -/
def unelems (w : Nat) (l : List Nat) : Nat := pack (l.map (fun v => (w, v)))

/-- A value with its E8M0 scale: NaN under scale 0xFF. -/
def scaled (sc : Nat) (v : Val) : Val :=
  if sc == 0xFF then .nan else
  match v with
  | .fin x => .fin (x.scale ((sc : Int) - 127))
  | .inf n => .inf n
  | .nan => .nan

/-! ## Quantisation (R276) -/

/-- emax of a format (R276). -/
def emaxOf (code : Nat) : Int :=
  match code with
  | 4 | 6 => 8
  | 5 | 7 => 15
  | 8 => 4
  | 9 | 10 => 2
  | _ => 0

/-- A refresh format element from a value without a scale: FP8 with NaN kept, infinities and overflow saturated. -/
def EFmt.quant (f : EFmt) (v : Val) : Nat :=
  match v with
  | .nan => f.nanBits
  | .inf neg => f.signBits neg + f.maxBits
  | .fin x => (f.rneSat x).1

/-- Quantise 32 BF16 elements: the block's elements packed, and its scale byte for MX formats (R276). -/
def quantise (code : Nat) (xs : List Nat) : Nat :=
  match efmt code with
  | none => 0
  | some f =>
    let vs := xs.map bf16Fmt.decode
    if !isMx code then unelems f.w (vs.map f.quant)
    else if vs.any (fun v => v == .nan) then 0xFF <<< (32 * f.w)
    else
      let bmax := bf16Fmt.maxVal
      let fins : List Fp := vs.map (fun v => match v with
        | .fin x => x
        | .inf neg => { bmax with neg := neg }
        | .nan => fpZero)
      let amax := if vs.any (fun v => match v with
          | .inf _ => true
          | _ => false) then bmax
        else fins.foldl (fun a x => if a.magLe x then x.abs else a) fpZero
      let x0 : Int := if amax.m = 0 then -127 else amax.e + blen amax.m - 1 - emaxOf code
      let x := min (max x0 (-127)) 127
      unelems f.w (fins.map (fun v => (f.rneSat (v.scale (-x))).1)) + (x + 127).toNat <<< (32 * f.w)

/-- Bytes of a block as sent and mirrored (R281). -/
def blockBytes (code : Nat) : Nat :=
  match efmt code with
  | none => 32
  | some f => if isMx code then 4 * f.w + 1 else 32

end Sys2Proof.Machine
end

