-- ==== Sys2Proof/Machine/Watch.lean ====
section
/-! DEFINITION. MX layout and decant (R298 to R303), the numerics watch's counts (R206), non-finite counts of gradient writes
(R111). -/

namespace Sys2Proof.Machine

/-! ## MX layout (R299) -/

/-- Bytes of a frame of an MX format of element width `w`. -/
def mxFrame (w : Nat) : Nat := (4 * w + 1) * 4096

/-- The block a byte offset of an MX region belongs to: (frame, block in frame). -/
def mxBlock (w off : Nat) : Nat × Nat :=
  let i := off % mxFrame w
  (off / mxFrame w, if i < 4 * w * 4096 then i / (4 * w) else i - 4 * w * 4096)

/-- Address of a block's elements and of its scale byte. -/
def Region.blockAddr (r : Region) (w : Nat) (b : Nat × Nat) : Nat := r.base * 4096 + b.1 * mxFrame w + 4 * w * b.2
def Region.scaleAddr (r : Region) (w : Nat) (b : Nat × Nat) : Nat := r.base * 4096 + b.1 * mxFrame w + 4 * w * 4096 + b.2

/-- Whether an address of an MX region lies in a scale unit. -/
def Region.inScale (r : Region) (w addr : Nat) : Bool := decide (4 * w * 4096 ≤ (addr - r.base * 4096) % mxFrame w)

/-- The width of elements stored in a region, 0 for raw. -/
def Region.ew (r : Region) : Nat := ((efmt r.fmt).map (·.w)).getD 0

/-- Number of a scale line among the scale lines of the quay's MX regions (R303). -/
def State.scaleNo (s : State) (l : Nat) (r : Region) (addr : Nat) : Nat :=
  let before := ((s.lquay l).regions.filter (fun x => isMx x.fmt && decide (x.base < r.base))).foldl
    (fun a x => a + x.size * 4096 / mxFrame (max x.ew 1) * 32) 0
  let w := max r.ew 1
  let off := addr - r.base * 4096
  before + off / mxFrame w * 32 + (off % mxFrame w - 4 * w * 4096) / 128

/-- A write to a scale line sets its bit of the scale-presence map (R303). -/
def State.scaleWritten (s : State) (l addr : Nat) : State :=
  match s.regionOf l addr with
  | none => s
  | some r =>
    if !isMx r.fmt || !r.inScale r.ew addr then s else
    let a := lineOf addr
    if (s.port l).scales.contains a then s else
    let n := s.scaleNo l r addr
    let b := s.lpar l .scaleMapBase + n / 8
    (s.modPort l (fun p => { p with scales := a :: p.scales })).ownWrite l b 1 (s.readB l b 1 ||| 2 ^ (n % 8))

/-- Clear the scale-presence map, at enable and at job start (R303). -/
def State.scaleClear (s : State) (l : Nat) : State :=
  let n := ((s.lquay l).regions.filter (fun x => isMx x.fmt)).foldl (fun a x => a + x.size * 4096 / mxFrame (max x.ew 1) * 32) 0
  (s.modPort l (fun p => { p with scales := [] })).zeroArea l (s.lpar l .scaleMapBase) (cdiv n 8)

/-! ## Decant (R298 to R302) -/

/-- Whether a kind is marked for decant (R26). -/
def kindDecants (k : Nat) : Bool := k == 0 || k == 4 || k == 5

/-- Whether an expected format may be asked for (R298). -/
def fmtExpected (x : Nat) : Bool := decide (1 ≤ x) && decide (x ≤ 5)

/-- Whether a read of an address with an expected format is a decanting read. -/
def decants (r : Option Region) (fmt : Nat) : Bool :=
  fmt != 0 && fmt != (match r with
    | some r => r.fmt
    | none => 0)

/-- Bytes of the stored span of a decanting read (R300). -/
def spanBytes (r : Region) (fmt : Nat) : Nat := 128 * r.ew / max ((efmt fmt).map (·.w) |>.getD 1) 1

/-- Whether a decanting read is permitted and aligned (R298, R300). -/
def decantOk (r : Region) (fmt addr : Nat) : Bool :=
  let off := addr - r.base * 4096
  let sp := spanBytes r fmt
  kindDecants r.kind && fmtExpected fmt && decide (r.ew ≠ 0) &&
  (if isMx r.fmt then !r.inScale r.ew addr && (off % mxFrame r.ew) % sp == 0 else off % sp == 0)

/-- The line a decanting read returns: the elements in the expected format, whether a scale is missing, how many elements
saturated. -/
def State.decantLine (s : State) (l : Nat) (r : Region) (fmt addr : Nat) : Line × Bool × Nat :=
  match efmt r.fmt, efmt fmt with
  | some fs, some fx =>
    let n := 1024 / fx.w
    let v := s.readAt l addr (spanBytes r fmt)
    let off := addr - r.base * 4096
    let first := (off % mxFrame r.ew) * 8 / fs.w
    let fr := off / mxFrame r.ew
    let one := fun (i x : Nat) =>
      if isMx r.fmt then
        let sa := r.scaleAddr fs.w (fr, (first + i) / 32)
        (fx.produce (scaled (s.readAt l sa 1) (fs.decode x)), !(s.port l).scales.contains (lineOf sa) || !s.lineOk l (s.memLoc l sa))
      else (fx.produce (fs.decode x), false)
    let out := (elems fs.w n v).zipIdx.map (fun e => one e.2 e.1)
    (BitVec.ofNat 1024 (unelems fx.w (out.map (fun e => e.1.1))), out.any (fun e => e.2), (out.filter (fun e => e.1.2)).length)
  | _, _ => (0, false, 0)

/-! ## The numerics watch (R206, R207, R212) -/

/-- What one element adds to the counts: SAT and SUB by its own encoding, even under a NaN scale; MAXMAG in FP32 truncated. The MXINT8 element
0x80, −2.0, lies beyond the largest magnitude both signs have, 127 / 64; R206 does not say whether it counts as SAT: DESIGN CHOICE, unsafe
(log 121), it does not. -/
def nwElem (f : EFmt) (bits : Nat) (sc : Option Nat) (c : NwCnt) : NwCnt :=
  let v := match sc with
    | some k => scaled k (f.decode bits)
    | none => f.decode bits
  let mag := bits % 2 ^ (f.w - 1)
  let top := if f.kind == 3 then bits == 127 || bits == 129 else mag == f.maxBits
  let sub := f.kind != 3 && fld bits (f.w - 2) f.mb == 0 && bits % 2 ^ f.mb != 0
  let c1 := { c with sat := min (c.sat + b2n top) 0xFFFFFFFF, sub := min (c.sub + b2n sub) 0xFFFFFFFF }
  match v with
  | .nan | .inf _ => { c1 with nf := min (c.nf + 1) 0xFFFFFFFF }
  | .fin x =>
    let t := f32Trunc x
    { c1 with zero := min (c.zero + b2n (x.m == 0)) 0xFFFFFFFF, max := max c.max t.1, clip := c.clip || t.2 }

/-- The bytes of a mask from byte `lo`, `n` of them: whether any is set. -/
def maskAny (m : BitVec 128) (lo n : Nat) : Bool := (List.range n).any (fun i => m.getLsbD (lo + i))

/-- Elements of a line covered by a mask, for a format that is not MX. -/
def coveredElems (f : EFmt) (m : BitVec 128) (x : Line) : List Nat :=
  let b := f.w / 8
  ((elems f.w (1024 / f.w) x.toNat).zipIdx.filter (fun e => maskAny m (b * e.2) b)).map (·.1)

/-- The MX blocks a masked line write touches. -/
def touchedBlocks (r : Region) (w addr : Nat) (m : BitVec 128) : List (Nat × Nat) :=
  (((List.range 128).filter (fun i => m.getLsbD i)).map (fun i => mxBlock w (addr + i - r.base * 4096))).eraseDups

/-- The key of the counts of a step's attempt: the earlier aborted attempts above the 48 bits of the step (R207, R209). -/
def State.nwStep (s : State) (step : Nat) : Nat := s.steps.aborts.get 0 step * 2 ^ 48 + step

/-- The key a write's counts belong to: the current step's attempt on a learner, the version on a generator; none with no
job (R207, R212). A learner's write after a step's close stays under that step's key; R207 does not say what becomes of one that comes after its
share has been merged: DESIGN CHOICE, unsafe (log 122), it stands in no entry. -/
def State.nwKey (s : State) : Option Nat :=
  if !s.jobOn then none else if s.ident.gen then some s.refr.cur else some (s.nwStep s.steps.last)

/-- Count the elements of a line written to a region with NW = 1 (R206); the line as it now is. `key`: the step or version. -/
def State.nwCountAs (s : State) (key l : Nat) (r : Region) (addr : Nat) (m : BitVec 128) (x : Line) : State :=
  match efmt r.fmt with
  | none => s
  | some f =>
    let k := (key, r.tag)
    let c0 := (s.lquay l).nw.get {} k
    let c := if isMx r.fmt then
        (touchedBlocks r f.w addr m).foldl (fun c b =>
          (elems f.w 32 (s.readAt l (r.blockAddr f.w b) (4 * f.w))).foldl
            (fun c v => nwElem f v (some (s.readAt l (r.scaleAddr f.w b) 1)) c) c) c0
      else (coveredElems f m x).foldl (fun c v => nwElem f v none c) c0
    s.modLquay l (fun q => { q with nw := q.nw.set k c })

/-- The same under a key given at classification, where there is one. -/
def State.nwCount (s : State) (key : Option Nat) (l addr : Nat) (m : BitVec 128) (x : Line) : State :=
  match s.regionOf l addr, key with
  | some r, some k => if r.nw then s.nwCountAs k l r addr m x else s
  | _, _ => s

/-! ## Non-finite gradient elements (R111) -/

/-- NF_TOL of a tag (R482). -/
def State.nfTol (s : State) (tag : Nat) : Bool := bitOf (s.hw (0x1200 + 4 * (tag / 32))) (tag % 32)

/-- A gradient write adds its non-finite elements to the step's NF share; of a tag that tolerates them, the step only notes that it saw
some (R111, R130). -/
def State.gradCount (s : State) (l addr : Nat) (m : BitVec 128) (x : Line) : State :=
  match s.regionOf l addr with
  | none => s
  | some r =>
    if r.kind != 2 || !s.jobOn then s else
    match efmt r.fmt with
    | none => s
    | some f =>
      let n := ((coveredElems f m x).filter (fun v => match f.decode v with
        | .fin _ => false
        | _ => true)).length
      if n == 0 then s
      else if s.nfTol r.tag then s.modStep s.steps.last (fun st => { st with tolNf := true })
      else s.modStep s.steps.last (fun st => { st with nf := st.nf.set l (st.nf.get 0 l + n) })

/-- What every direct write of a line brings with it: the watch, under the key of its classification, the gradient counts, the scale map. -/
def State.wroteLine (s : State) (key : Option Nat) (l addr : Nat) (m : BitVec 128) : State :=
  let x := s.getLine l addr
  ((s.nwCount key l addr m x).gradCount l addr m x).scaleWritten l addr

end Sys2Proof.Machine
end

