-- ==== Sys2Proof/Machine/History.lean ====
section
/-! DEFINITION. The numerics history and the delayed-maximum records (R207 to R213). -/

namespace Sys2Proof.Machine

/-- The address of slot `i` of a tag, and of its delayed-maximum record (R208). -/
def State.nwSlot (s : State) (tag i : Nat) : Nat := s.hpar .nwBase + 512 * tag + 32 * i
def State.nwRec (s : State) (tag : Nat) : Nat := s.hpar .nwBase + 0x200000 + 16 * tag

/-- Tags watched at some position, one under relief among them. -/
def State.nwTags (s : State) : List Nat :=
  (s.standing.flatMap (fun l => ((s.confQuay l).regions.filter (fun r => r.nw)).map (·.tag))).eraseDups

/-- HEAD of a tag, read from its record (R211, R213). -/
def State.nwHead (s : State) (tag : Nat) : Nat := s.readB 0 (s.nwRec tag + 10) 1 % 16

/-- Whether slot `i` qualifies for the delayed maximum of step `cur` (R211). -/
def State.nwQual (s : State) (tag i cur : Nat) : Bool :=
  let e := s.readB 0 (s.nwSlot tag i) 32
  let st := byt e 26 26
  (st == 1 || st == 2) && decide (byt e 25 20 + max (s.hpar .nwDelay) 1 ≤ cur)

/-- Rewrite the delayed-maximum record of a tag: the newest qualifying entry, counting back from HEAD (R211). R211 does not say what the current
step is on a generator, which has none: DESIGN CHOICE, unsafe (log 118), the version after the one held, so that an entry whose version has
just been completed by its flip qualifies with NW_DELAY 1. -/
def State.nwDmax (s : State) (tag head : Nat) : State :=
  let cur := if s.ident.gen then s.refr.cur + 1 else s.steps.last
  let pick := ((List.range 16).map (fun k => (head + 16 - k) % 16)).find? (fun i => s.nwQual tag i cur)
  let v := match pick with
    | some i =>
      let e := s.readB 0 (s.nwSlot tag i) 32
      pack [(32, byt e 19 16), (48, byt e 25 20), (4, head), (1, 0), (3, 0), (40, 0)]
    | none => pack [(32, 0), (48, 0), (4, head), (1, 1), (3, 0), (40, 0)]
  s.ownWrite 0 (s.nwRec tag) 16 v

/-- Rewrite every record, at a step-start (R211). -/
def State.nwRefreshAll (s : State) : State := foldS s.nwTags (fun t s => s.nwDmax t (s.nwHead t)) s

/-- The 32 B of an entry from the summed counts of a key (R209). -/
def State.nwBytes (s : State) (tag key state : Nat) (c : NwCnt) (gen : Bool) : Nat :=
  pack [(32, c.zero), (32, c.sat), (32, c.sub), (32, c.nf), (32, c.max), (48, key), (8, state),
    (1, b2n c.clip), (1, b2n (s.nfTol tag)), (1, b2n (s.num.incomplete.contains key)), (1, b2n gen), (4, 0),
    (16, min (key / 2 ^ 48) 0xFFFF), (16, 0)]

/-- Write the entry of a tag for a step or version from the summed counts (R209, R210). -/
def State.nwEntry (s : State) (tag key state : Nat) (c : NwCnt) (gen : Bool) : State :=
  let h := (s.nwHead tag + 1) % 16
  let kept := s.num.slots.filter (fun e => !(e.1.1 == tag && e.2 == h))
  let s1 := { s with num := { s.num with slots := if state == 1 then Tbl.set kept (tag, key) h else kept } }
  (s1.ownWrite 0 (s.nwSlot tag h) 32 (s.nwBytes tag key state c gen)).nwDmax tag h

/-- Two counts of one tag together (R206, R207). -/
def NwCnt.add (a c : NwCnt) : NwCnt :=
  { zero := sat32 (a.zero + c.zero), sat := sat32 (a.sat + c.sat), sub := sat32 (a.sub + c.sub), nf := sat32 (a.nf + c.nf),
    max := Nat.max a.max c.max, clip := a.clip || c.clip }

/-- The counts an entry holds. -/
def nwRead (e : Nat) : NwCnt :=
  { zero := byt e 3 0, sat := byt e 7 4, sub := byt e 11 8, nf := byt e 15 12, max := byt e 19 16, clip := bitOf e 216 }

/-- Counts made on a generator under a version after its flip join the entry this job has made of that version, where the tag has one (R212,
log 73). -/
def State.nwLate (s : State) (tag key : Nat) (c : NwCnt) : State :=
  match s.num.slots.find (tag, key) with
  | none => s.nwEntry tag key 1 c true
  | some i => (s.ownWrite 0 (s.nwSlot tag i) 32 (s.nwBytes tag key 1 ((nwRead (s.readB 0 (s.nwSlot tag i) 32)).add c) true)).nwDmax tag (s.nwHead tag)

/-- The sum of a tag's counts under a key over the quays. -/
def State.nwSum (s : State) (key tag : Nat) : Option NwCnt :=
  let cs := s.lquays.filterMap (fun l => (s.lquay l).nw.find (key, tag))
  if cs.isEmpty then none else
  some (cs.foldl NwCnt.add {})

/-- Take the sums of a step's attempt or of a version, and clear their counters (R207, R212). -/
def State.nwTake (s : State) (key : Nat) (put : Nat → NwCnt → State → State) : State :=
  let tags := (s.lquays.flatMap (fun l => ((s.lquay l).nw.filter (fun e => e.1.1 == key)).map (·.1.2))).eraseDups
  let s1 := foldS tags (fun t s => match s.nwSum key t with
    | some c => put t c s
    | none => s) s
  foldS s.lquays (fun l s => s.modLquay l (fun q => { q with nw := q.nw.filter (fun e => e.1.1 != key) })) s1

/-- Write the entries of a step's attempt or of a version (R207, R212). -/
def State.nwClose (s : State) (key state : Nat) (gen : Bool) : State := s.nwTake key (fun t c s => s.nwEntry t key state c gen)

/-- A generator's entry closes when the flip of its version completes, with those of versions it has passed on its way; what was written under the
version held until then joins that version's entry (R212). -/
def State.nwFlip (s : State) (old new : Nat) : State :=
  if (s.phys 0).isNone then { s with num := { s.num with flips := s.num.flips ++ [(old, new)] } } else
  let vs := sortBy (fun a b => decide (a ≤ b)) ((s.lquays.flatMap (fun l => ((s.lquay l).nw.map (·.1.1)).filter (fun v => decide (old < v) && decide (v < new)))).eraseDups)
  let s1 := (foldS vs (fun v s => s.nwClose v 1 true) (s.nwTake old (fun t c s => s.nwLate t old c))).nwClose new 1 true
  { s1 with num := { s1.num with incomplete := s1.num.incomplete.filter (· ≠ old) } }

/-- Logical quay 0 serves again after a relief: the versions whose flip has completed meanwhile close, and every record is rewritten (R211,
R213). -/
def State.nwRelief (s : State) : State :=
  (foldS s.num.flips (fun e (s : State) => s.nwFlip e.1 e.2) { s with num := { s.num with flips := [] } }).nwRefreshAll

/-- The key of a share. -/
def NumShare.key (e : NumShare) : Nat := e.attempt * 2 ^ 48 + e.step

/-- Set the STATE of the entries this job has closed for a step's attempt, moored or aborted, and of its shares still to be merged (R210). -/
def State.nwState (s : State) (step state : Nat) : State :=
  let att := s.steps.aborts.get 0 step
  let s1 := { s with num := { s.num with pending := mapIf (fun e => e.step == step && e.attempt == att) (fun e => { e with state := state }) s.num.pending } }
  let mine := s1.num.slots.filter (fun e => e.1.2 == s.nwStep step)
  let s2 := { s1 with num := { s1.num with slots := s1.num.slots.filter (fun e => e.1.2 != s.nwStep step) } }
  foldS mine (fun e s => (s.ownWrite 0 (s.nwSlot e.1.1 e.2 + 26) 1 state).nwDmax e.1.1 (s.nwHead e.1.1)) s2

/-- NUMERICS_SHARE: the shares of a closed or aborting step, sent on the numerics class, are merged by logical quay 0 (R22, R207), under relief
by its relief quay once it serves (R213). -/
def State.numericsShare (s : State) (step : Nat) : State :=
  if (s.phys 0).isNone then s else
  match s.num.pending.find? (fun e => e.step == step) with
  | none => s
  | some e =>
    let s1 := (foldS s.lquays (fun l s => s.ringTo l 0 5 (.numerics step)) s).nwClose e.key e.state false
    { s1 with num := { s1.num with pending := s1.num.pending.filter (· ≠ e), incomplete := s1.num.incomplete.filter (· ≠ e.key) } }

/-- The shares of a quay that has failed are lost: the entries of what was not merged yet, on a generator of the version held and of the one
being flipped to, carry INCOMPLETE (R213). -/
def State.nwLost (s : State) : State :=
  let keys := if s.ident.gen then s.refr.cur :: (s.refr.w.toList ++ (s.refr.flipped.map (·.2)).filter (fun v => decide (s.refr.cur < v)))
    else s.num.pending.map NumShare.key ++ (if s.steps.opened then [s.nwStep s.steps.last] else [])
  { s with num := { s.num with incomplete := (keys ++ s.num.incomplete).eraseDups } }

end Sys2Proof.Machine
end

