-- ==== Sys2Proof/Machine/Tile.lean ====
section
/-! DEFINITION. Product tiles (R339 to R342). -/

namespace Sys2Proof.Machine

/-- A tile entry (R339, R481). -/
structure TileEnt where
  valid   : Bool
  noabort : Bool
  tag     : Nat
  rows    : Nat
  cols    : Nat
  rel     : Int
  abs     : Int
  deriving DecidableEq, Repr

/-- Tile entry `t`. -/
def State.tileEnt (s : State) (t : Nat) : TileEnt :=
  let a := s.hw (0x1100 + 8 * t)
  let b := s.hw (0x1104 + 8 * t)
  { valid := bitOf a 31, noabort := bitOf a 30, tag := fld a 29 18, rows := fld a 17 11, cols := fld a 10 4,
    rel := signed 8 (fld b 15 8), abs := signed 8 (fld b 7 0) }

/-- The tile entry of a region of kind 3. -/
def State.tileEntOf (s : State) (r : Region) : Option (Nat × TileEnt) :=
  if r.kind != 3 then none else
  ((List.range 16).map (fun t => (t, s.tileEnt t))).find? (fun e => e.2.valid && e.2.tag == r.tag)

/-- Lines of a row, and of a whole tile (R340). -/
def TileEnt.rowLines (e : TileEnt) (w : Nat) : Nat := e.cols * (w / 8) / 128
def TileEnt.lines (e : TileEnt) (w : Nat) : Nat := e.rows * e.rowLines w + cdiv e.cols 32 + cdiv e.rows 32

/-- The tile an address lies in: its entry, the region's element width, its base (R340). -/
def State.tileOf (s : State) (l addr : Nat) : Option (Nat × TileEnt × Region × Nat) :=
  match s.regionOf l addr with
  | none => none
  | some r =>
    match s.tileEntOf r with
    | none => none
    | some (t, e) =>
      let sz := e.lines r.ew * 128
      if sz = 0 then none else
      let n := (addr - r.base * 4096) / sz
      if (n + 1) * sz ≤ r.size * 4096 then some (t, e, r, r.base * 4096 + n * sz) else none

/-- The sum of a row or column against its reference (R341): some true passed, some false failed, none not judged. -/
def tileCheck (rel abs : Int) (vs : List Val) (ref : Val) : Option Bool :=
  let fin := fun (v : Val) => match v with
    | .fin x => some x
    | _ => none
  match vs.mapM fin, fin ref with
  | some xs, some rf =>
    let r64 := fun (x : Fp) => (rne64 x).getD x
    let s := xs.foldl (fun a x => r64 (a.add x)) fpZero
    let m := xs.foldl (fun a x => r64 (a.add x.abs)) fpZero
    let lim := r64 ((r64 (m.scale rel)).add (fpOne.scale abs))
    some ((r64 (s.sub rf)).abs.magLe lim)
  | _, _ => none

/-- A line of the tile that is poisoned or does not read back fails it with index 0 (DESIGN CHOICE, log 113). -/
def tileUnread : Nat := 0

/-- Verify a tile: the first failing row or column (a column as rows + c), and rows or columns not judged (R341). -/
def State.verifyTile (s : State) (l : Nat) (e : TileEnt) (r : Region) (base : Nat) : Option Nat × Nat :=
  match efmt r.fmt with
  | none => (none, 0)
  | some f =>
    let row := fun (i : Nat) => (elems f.w e.cols (s.readB l (base + i * e.rowLines f.w * 128) (e.cols * f.w / 8))).map f.decode
    let m := (List.range e.rows).map row
    let cb := base + e.rows * e.rowLines f.w * 128
    let cs := (elems 32 e.cols (s.readB l cb (4 * e.cols))).map f32Fmt.decode
    let rs := (elems 32 e.rows (s.readB l (cb + cdiv e.cols 32 * 128) (4 * e.rows))).map f32Fmt.decode
    let res := m.zipIdx.map (fun x => tileCheck e.rel e.abs x.1 (rs.getD x.2 .nan)) ++
      (List.range e.cols).map (fun c => tileCheck e.rel e.abs (m.map (fun x => x.getD c .nan)) (cs.getD c .nan))
    let ok := (List.range (e.lines f.w)).all (fun i => s.lineOk l (base + 128 * i))
    (if ok then (List.range res.length).find? (fun i => res.getD i none == some false) else some tileUnread,
     (res.filter (· == none)).length)

/-- A failed or unverified tile: its base reads as poison until it is rewritten; TILE_CHECK with its signature, and an abort
request on a learner unless NOABORT (R342). -/
def State.tileFail (s : State) (l : Nat) (e : TileEnt) (base idx : Nat) : State :=
  let s1 := s.modLquay l (fun q => { q with badTiles := base :: q.badTiles.filter (· ≠ base) })
  let s2 := s1.sigL l { cls := 9, unit := 0xD, addr := base, detail := idx, named := some idx }
  if s.ident.gen || e.noabort then s2 else s2.requestAbort s.steps.last

/-- Close a tile unverified: evicted, or open too long (R341). No row or column of it was checked, and its TILE_CHECK carries
index 0 (DESIGN CHOICE, log 113). -/
def State.tileEvict (s : State) (l : Nat) (x : TileSt) : State :=
  let s1 := (s.modLquay l (fun q => { q with tiles := q.tiles.filter (fun y => y.base != x.base) })).evL l .tileEvict [(40, x.base)]
  s1.tileFail l (s.tileEnt x.entry) x.base 0

/-- A write to a line of a tile opens it; a seventeenth evicts the one opened earliest (R341). -/
def State.tileOpen (s : State) (l addr : Nat) : State :=
  match s.tileOf l addr with
  | none => s
  | some (t, _, _, base) =>
    if (s.lquay l).tiles.any (fun x => x.base == base) then s else
    let s1 := match (s.lquay l).tiles with
      | x :: rest => if 15 ≤ rest.length then s.tileEvict l x else s
      | [] => s
    s1.modLquay l (fun q => { q with tiles := q.tiles ++ [{ base := base, entry := t, lines := [], since := s.clock }] })

/-- A line of an open tile has been written; with the last the tile is verified (R341, R342). -/
def State.tileMark (s : State) (l addr : Nat) : State :=
  match s.tileOf l addr with
  | none => s
  | some (_, e, r, base) =>
    match (s.lquay l).tiles.find? (fun x => x.base == base) with
    | none => s
    | some x =>
      let i := (addr - base) / 128
      let ls := if x.lines.contains i then x.lines else i :: x.lines
      if ls.length < e.lines r.ew then
        s.modLquay l (fun q => { q with tiles := mapIf (fun y => y.base == base) (fun y => { y with lines := ls }) q.tiles })
      else
        let v := s.verifyTile l e r base
        let s1 := (s.modLquay l (fun q => { q with tiles := q.tiles.filter (fun y => y.base != base), badTiles := q.badTiles.filter (· ≠ base) })).countL l 0x26 v.2 { addr := some base }
        match v.1 with
        | none => s1
        | some i => s1.tileFail l e base i

/-- TILE_OPEN_EXPIRY: tiles open for TILE_OPEN_T are closed unverified (R341). -/
def State.tileExpire (s : State) (l : Nat) : State :=
  foldS ((s.lquay l).tiles.filter (fun x => s.passed x.since (s.lpar l .tileOpenT))) (fun x s => s.tileEvict l x) s

/-- Whether a read of an address waits for its tile, and whether it reads as poison (R342). -/
def State.tileHolds (s : State) (l addr : Nat) : Bool :=
  match s.tileOf l addr with
  | none => false
  | some (_, _, _, base) => (s.lquay l).tiles.any (fun x => x.base == base)
def State.tileBad (s : State) (l addr : Nat) : Bool :=
  match s.tileOf l addr with
  | none => false
  | some (_, _, _, base) => (s.lquay l).badTiles.contains base

end Sys2Proof.Machine
end

