-- ==== Sys2Proof/Machine/Operands.lean ====
section
/-! DEFINITION. The operand forms of the write and read path: atomic operations on memory (R264, R265), the answer forms of
the compute port (R440), reserved-area errors (R70), reads against passes of the generator weights (R292, R295). -/

namespace Sys2Proof.Machine

/-! ## Atomic operations (R264, R265) -/

/-- Bytes of an atomic TYPE. -/
def atomBytes (type : Nat) : Nat := if type == 3 || type == 4 then 8 else 4

/-- binary32 addition of bit patterns, round to nearest even; a NaN result is 0x7FC0_0000. -/
def f32Add (a b : Nat) : Nat :=
  match f32Fmt.decode a, f32Fmt.decode b with
  | .fin x, .fin y => f32Round (x.add y)
  | .nan, _ | _, .nan => 0x7FC00000
  | .inf n, .inf m => if n == m then a else 0x7FC00000
  | .inf _, .fin _ => a
  | .fin _, .inf _ => b

/-- A key that orders binary32 values with -0 below +0. -/
def f32Key (v : Nat) : Int := if v < 2 ^ 31 then (v : Int) else -((v - 2 ^ 31 : Nat) : Int) - 1

/-- binary32 minimum or maximum: a NaN operand stores the canonical NaN (R265). -/
def f32MinMax (max : Bool) (a b : Nat) : Nat :=
  if f32Fmt.decode a == .nan || f32Fmt.decode b == .nan then 0x7FC00000
  else if decide (f32Key a ≤ f32Key b) != max then a else b

/-- Whether an OP and TYPE may go together, NORET with it (R264). -/
def atomOk (op type : Nat) (noret : Bool) : Bool :=
  (op == 1 && (type == 1 || type == 3 || type == 5)) ||
  ((op == 2 || op == 3) && decide (1 ≤ type) && decide (type ≤ 5)) ||
  (op == 4 && type == 4 && !noret)

/-- What memory becomes (R264). -/
def atomNew (op type mem operand compare : Nat) : Nat :=
  let w := 8 * atomBytes type
  let x := operand % 2 ^ w
  match op with
  | 1 => if type == 5 then f32Add mem x else (mem + x) % 2 ^ w
  | 2 | 3 =>
    let mx := op == 3
    if type == 5 then f32MinMax mx mem x
    else if type == 1 || type == 3 then
      (if decide (signed w mem ≤ signed w x) != mx then mem else x)
    else (if decide (mem ≤ x) != mx then mem else x)
  | _ => if mem == compare % 2 ^ w then x else mem

/-- An atomic on a line at an address: the new line and OLD. -/
def atomLine (op type operand compare addr : Nat) (old : Line) : Line × Nat :=
  let n := atomBytes type
  let b := addr % 128
  let m := byt old.toNat (b + n - 1) b
  (BitVec.ofNat 1024 (setFld old.toNat (8 * (b + n) - 1) (8 * b) (atomNew op type m operand compare)), m)

/-- The bytes of its line that an atomic at an address covers. -/
def atomMask (type addr : Nat) : BitVec 128 := BitVec.ofNat 128 ((2 ^ atomBytes type - 1) <<< (addr % 128))

/-! ## Answers of the compute port -/

/-- Answer a request on its lane (R438, R439). The harbour's own remote writes (R359) come from no lane and are not answered. -/
def State.cpAnswer (s : State) (pos lane tag status : Nat) (data : Line) (poison carries : Bool) : State :=
  if 4 ≤ lane then s else
  { s with cpOut := s.cpOut ++ [{ pos := pos, lane := lane, tag := tag, status := status, data := data,
                                  crc := if carries then lineCrc data else 0, poison := poison }] }

/-! ## Reserved areas (R70) -/

/-- A request to a reserved area: each quay makes one record per request source per scan period. Sources, after the position: 0 for its
compute port, 1 and the device for a remote request. -/
def State.areaError (s : State) (l : Nat) (src : Nat × Nat) (addr : Nat) : State :=
  if s.man.areaLogged.contains src then s else
  State.evL { s with man := { s.man with areaLogged := src :: s.man.areaLogged } } l .reservedArea [(40, addr)]

/-- The request source of an operation. -/
def Src.source (l : Nat) : Src → Option (Nat × Nat)
  | .cp .. => some (l, 0)
  | .remote h .. => some (l, 2 ^ 20 + fld h.toNat 83 64)
  | _ => none

/-! ## Reads of generator weights (R292, R295) -/

/-- The layer a tag belongs to. -/
def State.layerOf (s : State) (tag : Nat) : Option Nat :=
  match s.refr.sched with
  | none => none
  | some sc => (List.range sc.layers.length).find? (fun i =>
      let x := sc.layers.getD i (1, 0, 0, 0)
      decide (x.1 ≤ tag) && decide (tag ≤ x.2.1))

/-- The version a layer's share on a quay has flipped to. -/
def State.flipVer (s : State) (layer l : Nat) : Nat := s.refr.flipped.get 0 (layer, l)

/-- The version that a write of the flip brings (R212). -/
def State.flipKey (s : State) (l addr : Nat) : Option Nat := ((s.regionOf l addr).bind (fun r => s.layerOf r.tag)).map (fun k => s.flipVer k l)

/-- A read of a layer moves the pass cursor to the lowest entry at or above it that names the layer; layers whose last entry
it passes start their grace (R292). -/
def State.passRead (s : State) (layer : Nat) : State :=
  match s.refr.pass, s.refr.sched with
  | some p, some sc =>
    let lo := p.p.getD 0
    match (List.range sc.entries.length).find? (fun i => decide (lo ≤ i) && sc.entries.getD i 0 == layer) with
    | none => s
    | some i =>
      let last := fun (k : Nat) => (List.range sc.entries.length).foldl (fun a j => if sc.entries.getD j 0 == k then some j else a) (none : Option Nat)
      let past := (List.range sc.layers.length).foldl (fun t k => match last k with
        | some j => if decide (j < i) && (t.find k).isNone then t.set k s.clock else t
        | none => t) p.past
      { s with refr := { s.refr with pass := some { p with p := some i, past := past } } }
  | _, _ => s

inductive FlipGate where
  | serve | hold | noVersion
  deriving DecidableEq, Repr

/-- The gate of R295 for a read of a tag on a quay, and what it leaves in the pass. -/
def State.flipGate (s : State) (l tag : Nat) : State × FlipGate :=
  if !s.refr.held then (s, .noVersion) else
  match s.layerOf tag, s.refr.pass with
  | some k, some p =>
    let v := s.flipVer k l
    if v < p.version then (s, .hold)
    else if p.version < v then
      ({ s with refr := { s.refr with pass := some { p with mixed := true } } }, .serve)
    else (s, .serve)
  | _, _ => (s, .serve)

/-! ## Tensor lines and the refresh table (R181, R272, R484) -/

/-- The regions of a tag on a quay in ascending BASE. -/
def Quay.tagRegions (q : Quay) (tag : Nat) : List Region := sortBy (fun a b => decide (a.base ≤ b.base)) (q.regions.filter (fun r => r.tag == tag))

/-- The lines of a tag on a quay, ascending: its regions in ascending BASE. -/
def Quay.tagLines (q : Quay) (tag : Nat) : Nat := (q.regions.filter (fun r => r.tag == tag)).foldl (fun a r => a + r.size * 32) 0

/-- A refresh entry. -/
structure REnt where
  valid : Bool
  ptag  : Nat
  gtag  : Nat
  fmt   : Nat
  gid   : Nat
  elem  : Nat
  deriving DecidableEq, Repr

def State.refrEnt (s : State) (r : Nat) : REnt :=
  let w := fun x => s.hw (0x2000 + 16 * r + 4 * x)
  { valid := bitOf (w 0) 31, ptag := fld (w 0) 30 19, gtag := fld (w 0) 18 7, fmt := fld (w 0) 6 3, gid := fld (w 1) 11 0,
    elem := w 2 + (fld (w 3) 7 0) <<< 32 }

/-- The valid entries, ascending. -/
def State.refrEnts (s : State) : List Nat :=
  (List.range 256).filter (fun r => (s.hcfg.find (0x2000 + 16 * r)).isSome && (s.refrEnt r).valid)

/-- Lines of an entry's parameter on a quay. -/
def State.refrLines (s : State) (l r : Nat) : Nat := (s.confQuay l).tagLines (s.refrEnt r).ptag

/-- The index in a tag's local sequence of a line of a quay. -/
def Quay.tagIndex (q : Quay) (tag addr : Nat) : Option Nat :=
  match (q.tagRegions tag).find? (fun r => r.base * 4096 ≤ addr && addr < (r.base + r.size) * 4096) with
  | none => none
  | some r => some (((q.tagRegions tag).filter (fun x => decide (x.base < r.base))).foldl (fun a x => a + x.size * 32) 0 + (addr - r.base * 4096) / 128)

/-- The bit of local line `i` of an entry in a plane of the dirty map, counted from bit 0 of memory: the planes lie one after the other from
REFR_DIRTY_BASE, each with the lines of the entries in ascending entry order (R273). DESIGN CHOICE (log 48): a plane begins at a byte. -/
def State.dirtyBit (s : State) (l plane r i : Nat) : Nat :=
  let n := fun (x : Nat) => s.refrLines l x
  let before := ((s.refrEnts.filter (fun x => decide (x < r))).map n).foldl (· + ·) 0
  8 * (s.lpar l .refrDirtyBase + plane * cdiv ((s.refrEnts.map n).foldl (· + ·) 0) 8) + before + i

/-- Whether a bit of a quay's memory is set. -/
def State.memBit (s : State) (l b : Nat) : Bool := bitOf (s.readB l (b / 8) 1) (b % 8)

end Sys2Proof.Machine
end

