-- ==== Sys2Proof/Machine/Path.lean ====
section
/-! DEFINITION. The inline write path and the read path (R26, R28 to R31): an operation from its classification to its
answer. -/

namespace Sys2Proof.Machine

/-! ## Operations -/

/-- An operation by its number. -/
def State.op? (s : State) (l id : Nat) : Option Op := (s.lquay l).ops.find? (fun o => o.id == id)

/-- Change an operation. -/
def State.modOp (s : State) (l id : Nat) (f : Op → Op) : State :=
  s.modLquay l (fun q => { q with ops := mapIf (fun o => o.id == id) f q.ops })

/-- Whether an operation reads. -/
def OpKind.isRead (k : OpKind) : Bool :=
  match k with
  | .read _ => true
  | _ => false

/-- An operation enters, behind the earlier ones; a read takes its place in the order of its line at once (R30). It is classified now, but
for a protected write that has to wait for a step (R28, R207). -/
def State.opPush (s : State) (l : Nat) (src : Src) (kind : OpKind) (addr : Nat) (stage : Stage) (priv : Bool) (master : Nat) : State :=
  s.modLquay l (fun q => { q with opId := q.opId + 1, ordNo := q.ordNo + 1,
                                  ops := q.ops ++ [{ id := q.opId, src := src, kind := kind, addr := addr, stage := stage, priv := priv, master := master,
                                                     nw := if src == .flip then s.flipKey l addr else s.nwKey,
                                                     ord := if kind.isRead then some q.ordNo else none }] })

/-- Give an outcome to its source: a compute-port request is answered, another source finds it among the ended ones. -/
def State.outcome (s : State) (l : Nat) (src : Src) (addr status : Nat) (data : Line) (poison carries : Bool) : State :=
  match src with
  | .cp lane tag => s.cpAnswer l lane tag status data poison carries
  | _ => s.modLquay l (fun q => { q with fin := q.fin ++ [{ src := src, addr := addr, status := status, data := data, poison := poison }] })

/-- What an ended operation hands back: the collective engine is given the line it wrote (R233). -/
def Op.result (o : Op) (data : Line) (poison : Bool) : Line × Bool :=
  match o.src, o.kind with
  | .coll .., .write _ x p => (x, p)
  | _, _ => (data, poison)

/-- End an operation. -/
def State.opEnd (s : State) (l : Nat) (o : Op) (status : Nat) (data : Line := 0) (poison : Bool := false) : State :=
  let carries := status == 0 && (match o.kind with
    | .read _ => true
    | _ => false)
  let d := o.result data poison
  (s.modLquay l (fun q => { q with ops := q.ops.filter (fun x => x.id != o.id) })).outcome l o.src o.addr status d.1 d.2 carries

/-- Whether an operation has issued its new line, or its write. -/
def Stage.issued : Stage → Bool
  | .writing | .waitBody | .withheld => true
  | _ => false

/-- Whether the delta path applies to an address: a protected region while a job is active (R28). -/
def State.deltaPath (s : State) (l addr : Nat) : Bool := s.jobOn && s.kindOf l addr == 1

/-- Whether protected writes are classified now: the current step is OPEN (R28). -/
def State.stepOpen (s : State) : Bool := s.job.phase == .ready && s.steps.opened

/-- Whether an operation classified earlier on the same protected line has not yet issued its new line (R30). -/
def State.lineBusy (s : State) (l : Nat) (o : Op) : Bool :=
  (s.lquay l).ops.any (fun x => x.id != o.id && lineOf x.addr == lineOf o.addr && !x.stage.issued &&
    !x.kind.isRead && x.ord.any (fun a => o.ord.any (fun b => decide (a < b))))

/-- Whether an operation is one of the optimizer's writes of a share. -/
def Op.ofShare (o : Op) (b : Share) : Bool :=
  match o.src with
  | .opt tag step => b.tag == tag && b.step == step
  | _ => false

/-- Whether the optimizer holds a line back from a write: from the entry of the lines it updates until their new lines are issued
(R190). -/
def State.optHolds (s : State) (l : Nat) (o : Op) : Bool :=
  !o.kind.isRead && s.opt.shares.any (fun b => b.pos == l && b.held.contains (lineOf o.addr) && !o.ofShare b && o.ord.any (fun n => decide (b.ord < n)) &&
    (b.wait == 0 || (s.lquay l).ops.any (fun x => x.ofShare b && !x.stage.issued)))

/-- The place of a write in the order of its line: an optimizer write has that of its share's entry (R30, R190). -/
def State.opOrd (s : State) (l : Nat) (o : Op) : Nat :=
  match s.opt.shares.find? (fun b => b.pos == l && o.ofShare b) with
  | some b => b.ord
  | none => (s.lquay l).ordNo

/-- Whether an operation is an optimizer write whose step no longer is live: it ends with nothing written (R204). -/
def State.optStale (s : State) (o : Op) : Bool :=
  match o.src with
  | .opt _ step => !s.liveStep step
  | _ => false

/-- Classify a protected write: it belongs to the current step, takes its place in the order of its line, and its elements count with
the step's attempt (R28, R30, R207). -/
def State.opClassify (s : State) (l : Nat) (o : Op) : State :=
  let n := s.opOrd l o
  (s.modLquay l (fun q => { q with ordNo := q.ordNo + 1 })).modOp l o.id (fun o => { o with stage := .queued, step := some s.steps.last, ord := some n, nw := s.nwKey })

/-- The lines a decanting read enters together: its element lines and, in an MX region, its scale line (R304). -/
def Region.decantLines (r : Region) (fmt addr : Nat) : List Nat :=
  let off := addr - r.base * 4096
  let sc := r.scaleAddr r.ew (off / mxFrame r.ew, (off % mxFrame r.ew) * 8 / max r.ew 1 / 32)
  linesOf addr (spanBytes r fmt) ++ (if isMx r.fmt then [lineOf sc] else [])

/-- The lines an operation enters: one, or those of a decanting read (R304). -/
def State.opLines (s : State) (l : Nat) (o : Op) : List Nat :=
  match o.kind, s.regionOf l o.addr with
  | .read fmt, some r => if decants (some r) fmt then r.decantLines fmt o.addr else [lineOf o.addr]
  | _, _ => [lineOf o.addr]

/-- Whether a read still waits for a combining entry to reach its place among what the entry merges (R266, R304). -/
def State.combPends (s : State) (l id : Nat) : Bool := (s.lquay l).rmt.comb.any (fun c => c.waiting.any (fun w => w.src == .comb && w.id == id))

/-- Whether an earlier operation on a line of a kind that is not protected keeps one back: each waits for earlier writes and atomics not yet
issued, those the combining buffer has still to merge among them, and what writes for an earlier read that is queued or under way, a decanting
one on each of its lines (R30, R264, R266, R304). -/
def State.atomBusy (s : State) (l : Nat) (o : Op) : Bool :=
  let mine := s.opLines l o
  s.combPends l o.id ||
  (s.lquay l).ops.any (fun x => decide (x.id < o.id) && !x.stage.issued && (s.opLines l x).any mine.contains &&
    (match x.kind with
      | .read _ => !o.kind.isRead && (x.stage == .reading || x.stage == .queued)
      | _ => true))

/-! ## Protected lines (R29) -/

/-- The convoy, data unit and shadow line of a protected address. -/
def State.protOf (s : State) (l addr : Nat) : Option (Convoy × Nat × Nat) :=
  match s.regionOf l addr with
  | none => none
  | some r =>
    let c := s.convoy r.convoy
    ((s.lquay l).dOf r.convoy addr).map (fun d => (c, d, c.shadowAddr l d))

/-- Whether a data line of a position under salvage is not yet rebuilt (R156). -/
def State.unsalvaged (s : State) (l addr : Nat) : Bool :=
  match s.protOf l addr with
  | none => false
  | some (c, d, _) => s.salvaging c.idx && !s.isSalvaged l c.idx d (addr % 4096 / 128)

/-- Whether the old line reads sound: status OK, no mark, and its shadow entry agrees (R29 stage 4, R332), once the job has written one:
after the first stage of its start, and at a standby once it is placed (R495). -/
def State.oldSound (s : State) (l addr : Nat) : Bool :=
  match (if s.job.phase == .starting && !s.job.dataDone then none else s.protOf l addr) with
  | none => s.lineOk l addr
  | some (c, _, sh) => if c.valid then s.lineSound l addr sh (addr % 4096 / 128) else s.lineOk l addr

/-- The line is being rebuilt: the operation waits (R30, R156). -/
def State.opSalvage (s : State) (l : Nat) (o : Op) : State :=
  (s.modOp l o.id (fun o => { o with stage := .waitSalvage })).demandSalvage l (lineOf o.addr)

/-- What a protected write makes of the old line. -/
def OpKind.result (k : OpKind) (addr : Nat) (old : Line) : Line × Nat :=
  match k with
  | .read _ => (old, 0)
  | .write m d _ => (mergeLine m d old, 0)
  | .atomic op type _ x c => atomLine op type x c addr old

/-- Digest share of a write: LIDX × 2^27 + CRC32C(Δ) (R131). -/
def State.digestOf (s : State) (l addr : Nat) (d : Line) : Nat :=
  if d = 0 then 0 else
  let u := ((s.lquay l).unitOf addr).getD 0
  (((u * 32 + addr % 4096 / 128) * 16 + l) * 2 ^ 27 + lineCrc d) % 2 ^ 64

/-- Add to, or take from, the digest of a step (R131). -/
def State.digestAdd (s : State) (l step addr : Nat) (d : Line) (back : Bool) : State :=
  if d = 0 then s else
  let v := s.digestOf l addr d
  let k := if back then 2 ^ 64 - v else v
  s.modStep step (fun r => { r with sdig := r.sdig.set l ((r.sdig.get 0 l + k) % 2 ^ 64) })

/-- The lock-step window now running (R357). -/
def State.lockNow (s : State) : Nat := s.tide.now / 2 ^ s.hpar .lockP

/-- Add to, or take from, the lock-step sum of the window `w` in which a write was issued (R358). -/
def State.lockAdd (s : State) (l w addr : Nat) (d : Line) (back : Bool) : State :=
  if d = 0 then s else
  let v := s.digestOf l addr d
  let k := if back then 2 ^ 64 - v else v
  s.modPort l (fun p => { p with lockD := p.lockD.set w ((p.lockD.get 0 w + k) % 2 ^ 64),
                                 lockW := p.lockW.set w (if back then p.lockW.get 0 w - 1 else p.lockW.get 0 w + 1) })

/-- A line of a refresh tensor changed: its bit in the plane of the step's parity is set (R274). -/
def State.dirtyMark (s : State) (l addr step : Nat) : State :=
  match s.regionOf l addr with
  | none => s
  | some r =>
    foldS (s.refrEnts.filter (fun e => (s.refrEnt e).ptag == r.tag)) (fun e s =>
      match (s.lquay l).tagIndex r.tag (lineOf addr) with
      | none => s
      | some i =>
        let b := s.dirtyBit l (step % 2) e i
        if s.memBit l b then s else s.ownWrite l (b / 8) 1 (s.readB l (b / 8) 1 ||| 2 ^ (b % 8))) s

/-- The bytes an operation writes. -/
def OpKind.mask (k : OpKind) (addr : Nat) : BitVec 128 :=
  match k with
  | .write m _ _ => m
  | .atomic _ type _ _ _ => atomMask type addr
  | .read _ => fullMask

/-- The incoming line of an operation: what a write brings, and the result of an atomic, with every byte not written taken as zero (R329). -/
def OpKind.incoming (k : OpKind) (addr : Nat) (old : Line) : Line :=
  (match k with
    | .write _ x _ => x
    | _ => (k.result addr old).1) &&& expandMask (k.mask addr)

/-- The two identities of a protected write: what CRC-32C makes of the new line and of the delta agrees with what it makes of the old line and
of the line that came in (R329). -/
def writeIdentity (k : OpKind) (addr : Nat) (old new d : Line) : Bool :=
  let mask := k.mask addr
  let inc := k.incoming addr old
  let z := lineCrc 0
  lineCrc new == (lineCrc (old &&& ~~~ expandMask mask) ^^^ lineCrc inc ^^^ z) && lineCrc d == (lineCrc old ^^^ lineCrc new ^^^ z)

/-- What an admitted share still reserves falls as the entries of its line are appended (R115). -/
def State.optLogged (s : State) (l tag step : Nat) : State :=
  { s with opt := { s.opt with shares := mapIf (fun x => x.pos == l && x.tag == tag && x.step == step && decide (0 < x.wait)) (fun x => { x with resv := x.left }) s.opt.shares } }

/-- Stages 5 and 6: form the delta, verify it, count, and append the line entry; a line entry that would leave less than the control
reserve waits, flush pins being dropped first (R29, R110). Where an identity of R329 fails the write ends with an error and writes nothing,
and the write path is suspect. -/
def State.opLog (s : State) (l : Nat) (o : Op) (old : Line) : State :=
  let step := o.step.getD 0
  let res := o.kind.result o.addr old
  let d := old ^^^ res.1
  let mask := o.kind.mask o.addr
  let a : SigArg := { cls := 2, unit := 1, addr := lineOf o.addr, expected := lineCrc old, observed := lineCrc res.1 }
  if !s.liveStep step then s.opEnd l o 1
  else if !writeIdentity o.kind o.addr old res.1 d then (s.suspectL l 1 a).opEnd l o 1
  else if (s.lquay l).glitch.contains 1 then (s.unitErr l 1 a).1.opEnd l o 1
  else
    let a := lineOf o.addr
    let u := ((s.lquay l).unitOf a).getD 0
    let c := ((s.regionOf l a).map (·.convoy)).getD 0
    let ln := a % 4096 / 128
    let e := lineEntryBytes u ln c d false
    let c0 := s.logClaim l step e.1
    let s0 := c0.1
    if !c0.2 then s0.modOp l o.id (fun o => { o with stage := .waitLog, old := old })
    else
      let off := (s0.port l).log.head
      let s1 := s0.modOp l o.id (fun o => { o with stage := .logging, old := old, new := res.1, off := off })
      let s2 := (s1.nwCount o.nw l a mask res.1).logAppend l step (.line u ln c d false) (.op o.id)
      let s3 := s2.digestAdd l step a d false
      let s4 := if d = 0 then s3 else s3.dirtyMark l a step
      let s5 := match o.src with
        | .opt tag n => s4.optLogged l tag n
        | _ => s4
      s5.countL l 0x02 1 { addr := some a, kind := some 1 }

/-- Stage 7: the log append is acknowledged; the new line and its check-shadow value go out, in the lock-step window of this tide. -/
def State.opWrite (s : State) (l id : Nat) : State :=
  match s.op? l id with
  | none => s
  | some o =>
    let a := lineOf o.addr
    let s0 := (s.modOp l id (fun o => { o with stage := .writing, win := s.lockNow })).lockAdd l s.lockNow a (o.old ^^^ o.new) false
    let s1 := s0.issueWrite l a fullMask o.new false (.op id)
    match s.protOf l a with
    | none => s1
    | some (_, _, sh) => s1.shadowPut l sh (a % 4096 / 128) (lineCrc o.new)

/-- Stage 9, then the acknowledgement: the delta enters its lighter, whose berth it may have to wait for (R308). A write of a step that has begun
to abort meanwhile enters a lighter too, for the replay to revert it (R124). -/
def State.opDelta (s : State) (l : Nat) (o : Op) (step : Nat) : State :=
  let a := lineOf o.addr
  let c := ((s.regionOf l a).map (·.convoy)).getD 0
  let u := ((s.lquay l).unitOf a).getD 0
  let r := if (s.stepRec step).isSome then s.addDelta l c u step (a % 4096 / 128) o.off (o.old ^^^ o.new) else (s, true)
  if !r.2 then r.1.modOp l o.id (fun o => { o with stage := .waitBody })
  else if r.1.sealIsLate l then r.1.modOp l o.id (fun o => { o with stage := .withheld })
  else r.1.opEnd l o 0 (BitVec.ofNat 1024 (o.kind.result o.addr o.old).2)

/-- Stages 8 and 9: the channel port has accepted the new line. -/
def State.opWritten (s : State) (l : Nat) (o : Op) : State :=
  let a := lineOf o.addr
  match o.step with
  | none =>
    let data := match o.kind with
      | .atomic .. => BitVec.ofNat 1024 (o.kind.result o.addr o.old).2
      | _ => 0
    ((s.tileMark l a).opEnd l o 0 data)
  | some step => s.opDelta l o step

/-- The channel port answered ERROR to the new-line write: the entry is made void, the shadow entry keeps the old value, the
source receives an error (R29, R445). -/
def State.opWriteError (s : State) (l : Nat) (o : Op) : State :=
  let a := lineOf o.addr
  let s0 := s.sigL l { cls := 1, unit := 0xB, addr := a, expected := lineCrc (if o.step.isSome then o.new else match o.kind with
      | .write m x _ => mergeLine m x o.old
      | k => (k.result o.addr o.old).1), observed := lineCrc (s.getLine l a) }
  match o.step with
  | none => s0.opEnd l o 1
  | some step =>
    let s1 := s0.logRewrite l o.off (fun b => match b with
      | .line u ln c d _ => .line u ln c d true
      | b => b)
    let s2 := match s.protOf l a with
      | none => s1
      | some (_, _, sh) => s1.shadowPut l sh (a % 4096 / 128) (lineCrc o.old)
    ((s2.digestAdd l step a (o.old ^^^ o.new) true).lockAdd l o.win a (o.old ^^^ o.new) true).opEnd l o 1

/-! ## Lines of other kinds -/

/-- What a line written by the flip brings: it counts in the version it brings, `key` (R212, R294). -/
def State.flipWrote (s : State) (key : Option Nat) (l addr : Nat) (m : BitVec 128) : State :=
  let s1 := match s.regionOf l addr, key with
    | some r, some k => if r.nw then s.nwCountAs k l r addr m (s.readLine l addr) else s
    | _, _ => s
  s1.scaleWritten l addr

/-- A direct write of a line, an atomic on the line just read, or a write to a page of the hold (R26). -/
def State.opDirect (s : State) (l : Nat) (o : Op) (old : Line) : State :=
  let a := lineOf o.addr
  let r := match o.kind with
    | .read _ => (fullMask, old, false)
    | .write m d p => (m, d, p)
    | .atomic .. => (fullMask, (o.kind.result o.addr old).1, false)
  let h := s.holdReady l a
  if !h.2 then h.1.modOp l o.id (fun o => { o with stage := .waitPage })
  else
    let s1 := (h.1.tileOpen l a).modOp l o.id (fun o => { o with stage := .writing, old := old })
    let pa := s1.memLoc l a
    let s2 := s1.issueWrite l pa r.1 r.2.1 r.2.2 (.op o.id)
    let s3 := s2.holdDirty l a (lineCrc (s2.readLine l pa))
    if o.src == .flip then s3.flipWrote o.nw l a r.1 else s3.wroteLine o.nw l a (o.kind.mask o.addr)

/-! ## Starting an operation -/

/-- Issue the reads an operation needs: its line, or those of a decanting read (R304). -/
def State.opRead (s : State) (l : Nat) (o : Op) : State :=
  let lines := s.opLines l o
  let s0 := if o.step.isNone && !s.deltaPath l o.addr then s else s.shadowData l (lineOf o.addr)
  let s1 := s0.modOp l o.id (fun o => { o with stage := .reading, left := lines.length, bad := false })
  foldS lines (fun a s =>
    let h := match o.kind with
      | .read _ => s.holdRead l a true
      | _ => (s, s.memLoc l a)
    h.1.issueRead l h.2 (.op o.id)) s1

/-- Go on with an operation on a protected line, classified if it writes: it waits behind earlier ones on its line, then reads the old
line (R29, R30). A write whose step has begun to abort, or whose line is lost, ends with an error. -/
def State.opProt (s : State) (l : Nat) (o : Op) : State :=
  let a := lineOf o.addr
  let lost := (s.lquay l).lostLines.contains a
  if o.step.any (fun n => !s.liveStep n) || (lost && !o.kind.isRead) then s.opEnd l o 1
  else if s.lineBusy l o || s.optHolds l o then s
  else if s.unsalvaged l a && !lost then s.opSalvage l o
  else s.opRead l o

/-- Whether an operation comes from the compute port. -/
def Src.isCp : Src → Bool
  | .cp .. => true
  | _ => false

/-- The combining-buffer entry of a line. -/
def State.combOf (s : State) (l addr : Nat) : Option Comb := (s.lquay l).rmt.comb.find? (fun c => c.addr == lineOf addr)

/-- Change a combining entry. -/
def State.modComb (s : State) (l addr : Nat) (f : Comb → Comb) : State :=
  s.modLquay l (fun q => { q with rmt := { q.rmt with comb := mapIf (fun c => c.addr == addr) f q.rmt.comb } })

/-- A read that does not end in the combining buffer takes its place among the merges of each of its lines that has an entry: it keeps the line as
the entry has it, or waits behind what the entry has still to merge (R266, R304). -/
def State.combMark (s : State) (l id : Nat) : State :=
  match s.op? l id with
  | none => s
  | some o => foldS (s.opLines l o) (fun a s => match s.combOf l a with
    | none => s
    | some c =>
      if c.ready && c.waiting.isEmpty then s.modOp l id (fun o => { o with snap := o.snap ++ [(a, c.value, c.poison)] })
      else s.modComb l c.addr (fun c => { c with waiting := c.waiting ++ [{ o with src := .comb }] })) s

/-- The state as a read finds it: the lines it took from the combining buffer are as that had them (R266). -/
def State.withSnap (s : State) (l : Nat) (snap : List (Nat × Line × Bool)) : State :=
  foldS snap (fun x s =>
    let k := memKey l (lineOf (s.memLoc l x.1))
    { s.poke l (lineOf (s.memLoc l x.1)) 128 x.2.1.toNat with poisoned := setMark x.2.2 k s.poisoned, badLines := setMark false k s.badLines }) s

/-- Issue the reads of a read that the flip or a tile held: it takes its place among the merges of its lines now. -/
def State.readNow (s : State) (l : Nat) (o : Op) : State :=
  if o.stage != .waitFlip && o.stage != .waitTile then s.opRead l o else
  let s1 := (s.modOp l o.id (fun o => { o with stage := .queued, snap := [] })).combMark l o.id
  if s1.combPends l o.id then s1 else s1.opRead l o

/-- The attributes an operation's events carry: a privilege and a master at the compute port only (R379, R380). -/
def Op.attr (o : Op) (addr : Nat) : CntAttr :=
  if o.src.isCp then { priv := some o.priv, master := some o.master, addr := some addr } else { addr := some addr }

/-- Whether an operation writes poisoned data. -/
def OpKind.poisoned : OpKind → Bool
  | .write _ _ p => p
  | _ => false

/-- Try to start an operation that has not started (R28, R30, R295, R322, R342). A quiescent harbour ends a compute-port write to a protected
region with an error (R146), and a poisoned write to a protected line writes nothing (R333). -/
def State.opStart (s : State) (l : Nat) (o : Op) : State :=
  let a := lineOf o.addr
  let k := s.kindOf l a
  if s.deltaPath l a then
    if o.kind.isRead || o.step.isSome then s.opProt l o
    else if o.kind.poisoned then s.opEnd l o (if o.src.isCp then 1 else 4)
    else if s.optStale o || (s.quiet && o.src.isCp) then s.opEnd l o 1
    else if s.stepOpen then
      let s1 := s.opClassify l o
      match s1.op? l o.id with
      | some o1 => s1.opProt l o1
      | none => s1
    else s.modOp l o.id (fun o => { o with stage := .waitOpen })
  else if o.step.isSome then s.opEnd l o 1
  else if s.atomBusy l o then s
  else if o.kind.isRead then
    if k == 4 then
      let tag := ((s.regionOf l a).map (·.tag)).getD 0
      let layer := s.layerOf tag
      let s0 := match o.stage, layer with
        | .queued, some y => State.ringTo (s.passRead y) l 0 4 (.weightRead y)
        | _, _ => s
      match s0.flipGate l tag with
      | (s1, .noVersion) =>
        let s2 := if s1.job.noVersion then s1 else State.evL { s1 with job := { s1.job with noVersion := true } } l .noVersion []
        s2.opEnd l o 1
      | (s1, .hold) =>
        let s2 := if o.stage == .waitFlip then s1 else s1.countL l 0x1F 1 (o.attr a)
        s2.modOp l o.id (fun o => { o with stage := .waitFlip })
      | (s1, .serve) =>
        let s2 := match s1.refr.pass, layer with
          | some p, some y => if decide (p.version < s1.flipVer y l) then
              s1.countL l 0x20 1 (o.attr a) else s1
          | _, _ => s1
        s2.readNow l o
    else if s.tileHolds l a then s.modOp l o.id (fun o => { o with stage := .waitTile })
    else s.readNow l o
  else
    match o.kind with
    | .atomic .. => s.opRead l o
    | _ => s.opDirect l o 0

/-- The data of an operation's reads are in (R29 stage 4, R332, R334); decant's output is poisoned where its arithmetic errs (R345). -/
def State.opData (s : State) (l : Nat) (o : Op) : State :=
  let a := lineOf o.addr
  let r := s.regionOf l a
  match o.kind with
  | .read fmt =>
    if s.deltaPath l a then
      if (s.lquay l).lostLines.contains a then s.opEnd l o 0 (s.readLine l a) true
      else if !s.oldSound l a then s.opSalvage l o
      else s.opEnd l o 0 (s.readLine l a)
    else match r with
      | some r =>
        if decants (some r) fmt then
          let x := (s.withSnap l o.snap).decantLine l r fmt o.addr
          let e := s.residueErr l 7 a
          let s1 := e.1.countL l 0x21 x.2.2 { addr := some a, kind := some r.kind }
          let s2 := if !x.2.1 then s1 else
            let s' := s1.countL l 0x22 1 { addr := some a }
            if s'.man.scaleLogged.contains (l, r.idx) then s' else
            State.evL { s' with man := { s'.man with scaleLogged := (l, r.idx) :: s'.man.scaleLogged } } l .decantNoscale [(8, r.idx)]
          s2.opEnd l o 0 x.1 (x.2.1 || e.2 || (o.bad && o.snap.isEmpty))
        else
          let s' := s.withSnap l o.snap
          s.opEnd l o 0 (s'.getLine l a) ((o.bad && o.snap.isEmpty) || !s'.getOk l a || s.tileBad l a)
      | none => s.opEnd l o 0 (s.getLine l a) (o.bad || !s.getOk l a)
  | .write .. =>
    match o.step with
    | none => s.opDirect l o (s.getLine l a)
    | some _ => if s.oldSound l a then s.opLog l o (s.readLine l a) else s.opSalvage l o
  | .atomic .. =>
    match o.step with
    | none => if o.bad || !s.getOk l a then s.opEnd l o 4 else s.opDirect l o (s.getLine l a)
    | some _ => if s.oldSound l a then s.opLog l o (s.readLine l a) else s.opSalvage l o

/-- The rebuilt line of an operation that waits for it is there, or its stripe is lost (R30, R156). -/
def State.opRebuilt (s : State) (l : Nat) (o : Op) : State :=
  let a := lineOf o.addr
  if (s.lquay l).lostLines.contains a then
    if o.kind.isRead then s.opEnd l o 0 (s.readLine l a) true else s.opEnd l o 1
  else if o.step.any (fun n => !s.liveStep n) then s.opEnd l o 1
  else match (s.lquay l).salv.rebuilt.find? (fun e => e.1 == a) with
    | none => if !s.unsalvaged l a && s.oldSound l a then s.opRead l o else s.demandSalvage l a
    | some e =>
      if o.kind.isRead then s.opEnd l o 0 e.2
      else match o.step with
        | some _ => s.opLog l o e.2
        | none => s.opDirect l o e.2

/-- Move an operation on as far as it goes without an answer from outside. -/
def State.opTry (s : State) (l id : Nat) : State :=
  match s.op? l id with
  | none => s
  | some o =>
    match o.stage with
    | .waitOpen | .queued | .waitFlip | .waitTile | .waitPage => s.opStart l o
    | .waitSalvage => s.opRebuilt l o
    | .waitLog => s.opLog l o o.old
    | .waitBody => match o.step with
      | some step => s.opDelta l o step
      | none => s
    | .withheld => if s.sealIsLate l then s else s.opEnd l o 0 (BitVec.ofNat 1024 (o.kind.result o.addr o.old).2)
    | .reading | .logging | .writing => s

/-- The order of sources whose requests come in one qclk (R30). -/
def Src.rank : Src → Nat
  | .cp .. => 0
  | .remote .. | .comb => 1
  | .opt .. | .flip => 2
  | .coll .. | .group => 3
  | _ => 4

/-- Move on the operations that wait at some sources for a step to open: they come together, and go in the order of their sources (R28, R30). -/
def State.opsOpen (s : State) (l : Nat) (ranks : List Nat) : State :=
  let held := (s.lquay l).ops.filter (fun o => o.stage == .waitOpen)
  foldS (ranks.flatMap (fun k => held.filter (fun o => o.src.rank == k))) (fun o s => s.opTry l o.id) s

/-- Move every operation of a position on, oldest first, those that wait for a step to open excepted but for the compute port's, which come first
among them; then rebuilt lines have been taken. -/
def State.opsGo (s : State) (l : Nat) : State :=
  let s1 := (foldS ((s.lquay l).ops.filter (fun o => o.stage != .waitOpen)) (fun o s => s.opTry l o.id) s).opsOpen l [0]
  s1.modLquay l (fun q => { q with salv := { q.salv with rebuilt := [] } })

/-! ## Submitting requests -/

/-- Merge one item into a combining entry (R266). -/
def combItem (c : Comb) (now : Nat) (o : Op) : Comb :=
  let add := fun (c : Comb) (st old : Nat) =>
    let it : CombItem := { src := o.src, kind := o.kind, addr := o.addr, status := st, old := old }
    { c with items := c.items ++ [it], first := some (c.first.getD now), last := now }
  match o.kind with
  | .read _ => c
  | .write m d p =>
    let x := mergeLine m d c.value
    add { c with value := x, poison := p || (c.poison && m != fullMask) } 0 0
  | .atomic op type _ x cmp =>
    if c.poison then add c 4 0
    else
      let r := atomLine op type x cmp o.addr c.value
      add { c with value := r.1 } 0 r.2

/-- Whether an entry's berth holds all the pending records it can: 512 (R267). -/
def Comb.full (c : Comb) : Bool := decide (512 ≤ c.items.length + c.flushing.length)

/-- An entry takes an operation in its order of arrival: a read is served from it, or keeps the line as it stands, a write or atomic is merged
(R266). What reads the entry's line meets the staging SRAM's check (R336). -/
def State.combServe (s : State) (l : Nat) (c : Comb) (o : Op) : State :=
  let whole := match o.kind with
    | .write m _ _ => m == fullMask
    | _ => false
  let y := if whole then (s, false) else s.sramRead l 4 c.addr
  let p := c.poison || y.2
  match o.kind with
  | .read _ =>
    if o.src == .comb then y.1.modOp l o.id (fun o => { o with snap := o.snap ++ [(c.addr, c.value, p)] })
    else y.1.outcome l o.src o.addr 0 c.value p true
  | _ => y.1.modComb l c.addr (fun c => combItem { c with poison := p } s.clock o)

/-- An entry takes what waits for it, as far as its berth has room. `n` bounds it. -/
def State.combDrain (s : State) (l addr : Nat) : Nat → State
  | 0 => s
  | n + 1 =>
    match s.combOf l addr with
    | none => s
    | some c =>
      match c.waiting with
      | [] => s
      | o :: t =>
        if !c.ready || (c.full && !o.kind.isRead) then s
        else ((s.modComb l c.addr (fun c => { c with waiting := t })).combServe l c o).combDrain l addr n

/-- Submit an operation: into the combining buffer where its line has an entry, else among the operations; a remote item that
finds its line hot makes an entry (R266). Past the entry go its own write-back, a decanting read and a read of a product tile's line, which take
their place among the merges (R304, R342), and what a quiescent harbour refuses (R146). -/
def State.opSubmit (s : State) (l : Nat) (src : Src) (kind : OpKind) (addr : Nat) (priv : Bool) (master : Nat) : State :=
  let a := lineOf addr
  let bypass := src == .comb || (match kind with
    | .read fmt => decants (s.regionOf l addr) fmt || s.kindOf l addr == 3
    | _ => s.quiet && src.isCp && s.deltaPath l addr)
  let o : Op := { id := 0, src := src, kind := kind, addr := addr, stage := .queued, priv := priv, master := master }
  match (if bypass then none else s.combOf l addr) with
  | some c =>
    (s.modComb l a (fun c => { c with waiting := c.waiting ++ [o], last := if c.ready then c.last else s.clock })).combDrain l a (c.waiting.length + 1)
  | none =>
    let n := ((s.lquay l).ops.filter (fun x => lineOf x.addr == a)).length
    let hot := (match src with
        | .remote .. => true
        | _ => false) && (match kind with
        | .read _ => false
        | _ => true) && decide (s.lpar l .hotThresh ≤ n)
    let room := decide ((s.lquay l).rmt.comb.length < 512) && decide ((s.lquay l).pools.level.get 0 2 < 2)
    let b := if hot && room then s.berthAlloc l 2 .combine a .nowait else (s, false)
    if b.2 then
      b.1.modLquay l (fun q => { q with rmt := { q.rmt with comb := q.rmt.comb ++ [{ addr := a, value := 0, poison := false, waiting := [o], last := s.clock }] } })
    else
      let s1 := if hot then b.1.countL l 0x1C 1 { addr := some a } else b.1
      let id := (s1.lquay l).opId
      let s2 := s1.opPush l src kind addr .queued priv master
      (if kind.isRead then s2.combMark l id else s2).opTry l id

/-- A request that ends at once. -/
def State.refuse (s : State) (l : Nat) (src : Src) (addr status : Nat) : State := s.outcome l src addr status 0 false false

/-- A format error of a read: an MX format or MXINT8 is expected, another reserved code, or a format of a region stored raw (R298, R301). -/
def State.formatError (s : State) (l addr : Nat) : State := s.evL l .formatError [(40, addr)]

/-- Submit a read of a line in an expected format (R24, R70, R298, R300, R440). -/
def State.readReq (s : State) (l : Nat) (src : Src) (fmt addr : Nat) (priv : Bool) (master : Nat) : State :=
  let r := s.regionOf l addr
  if s.inReserved l addr then
    (match src.source l with
      | some x => s.areaError l x addr
      | none => s).refuse l src addr 1
  else if decants r fmt || (fmt != 0 && !fmtExpected fmt) then
    match r with
    | none => (s.formatError l addr).refuse l src addr 1
    | some r =>
      if !fmtExpected fmt || r.ew == 0 then (s.formatError l addr).refuse l src addr 1
      else if !decantOk r fmt addr then s.refuse l src addr 1
      else s.opSubmit l src (.read fmt) addr priv master
  else if addr % 128 != 0 then s.refuse l src addr 1
  else s.opSubmit l src (.read 0) addr priv master

/-- Submit a write or an atomic on a line (R26, R70, R333, R440). -/
def State.writeReq (s : State) (l : Nat) (src : Src) (kind : OpKind) (addr : Nat) (priv : Bool) (master : Nat) : State :=
  let k := s.kindOf l addr
  let poison := match kind with
    | .write _ _ p => p
    | _ => false
  let aligned := match kind with
    | .atomic _ type _ _ _ => addr % atomBytes type == 0
    | _ => addr % 128 == 0
  if s.inReserved l addr then
    (match src.source l with
      | some x => s.areaError l x addr
      | none => s).refuse l src addr 1
  else if !aligned then s.refuse l src addr 1
  else if k == 4 && src != .flip then (s.evL l .regionKind [(40, addr)]).refuse l src addr 1
  else if s.deltaPath l addr && poison then s.refuse l src addr 1
  else s.opSubmit l src kind addr priv master

/-! ## The channel port's answers (R442 to R445) -/

/-- An append is acknowledged once its last channel write is; what it released goes on (R29 stage 7, R74). -/
def State.appendAcked (s : State) (l id : Nat) : State :=
  match (s.lquay l).conv.appends.find? (fun a => a.id == id) with
  | none => s
  | some a =>
    if 1 < a.left then s.modLquay l (fun q => { q with conv := { q.conv with appends := mapIf (fun x => x.id == id) (fun x => { x with left := x.left - 1 }) q.conv.appends } })
    else
      let s1 := s.modLquay l (fun q => { q with conv := { q.conv with appends := q.conv.appends.filter (fun x => x.id != id) } })
      match a.cont with
      | .none => s1
      | .op i => s1.opWrite l i
      | .lighter i =>
        (s1.modLquay l (fun q => { q with conv := { q.conv with sent := mapIf (fun g => g.id == i) (fun g => { g with recorded := true }) q.conv.sent } })).assignAll l

/-- The command a tag answers. -/
def State.mcFind (s : State) (l tag : Nat) (wr : Bool) : Option McCmd :=
  (s.lquay l).mc.find? (fun c => c.tag == some tag && c.wr.isSome == wr)

/-- An answered command leaves the list, and what waited behind it is sent. -/
def State.mcDone (s : State) (l : Nat) (c : McCmd) : State :=
  s.modLquay l (fun q => Quay.mcPump s.clock { q with mc := q.mc.filter (fun x => x.tag != c.tag || x.tag.isNone) })

/-- Read data of an operation: the last line of its span lets it go on. -/
def State.opReadData (s : State) (l id : Nat) (bad : Bool) : State :=
  match s.op? l id with
  | none => s
  | some o =>
    let o' := { o with left := o.left - 1, bad := o.bad || bad }
    let s1 := s.modOp l id (fun _ => o')
    if o'.left = 0 then s1.opData l o' else s1

/-- Undo what later writes queued to the line of a failed write had put on top of it, and put them on the restored line. -/
def State.restoreLine (s : State) (l : Nat) (c : McCmd) (d : McData) : State :=
  let k := memKey l c.addr
  let s0 := s.poke l c.addr 128 d.old.toNat
  let s1 := { s0 with poisoned := setMark d.oldPoison k s0.poisoned }
  let later := ((s1.lquay l).mc.dropWhile (fun x => x.tag != c.tag)).drop 1
  foldS (later.filter (fun x => x.addr == c.addr)) (fun x s => match x.wr with
    | some d => s.applyWrite l c.addr d
    | none => s) s1

/-- A write answered OK (R443). -/
def State.writeOk (s : State) (l : Nat) (c : McCmd) : State :=
  let s1 := s.mcDone l c
  match c.use with
  | .op id => match s1.op? l id with
    | some o => s1.opWritten l o
    | none => s1
  | .log id => s1.appendAcked l id
  | .parity id => s1.parityAcked l id
  | .evRing _ | .evRec _ | .fsigRing _ => s1.ringAcked c.use
  | _ => s1

/-- A reverted line is answered ERROR: its entry in the shadow line in memory is that of the line as it stands, by which the replay is continued
(R128, R375). -/
def State.replayErr (s : State) (l a : Nat) : State :=
  match s.dataShadow l a with
  | some sh => s.poke l (sh + 4 * (a % 4096 / 128)) 4 (lineCrc (s.readLine l a))
  | none => s

/-- A write answered ERROR (R445, R371): the line is unchanged. -/
def State.writeErr (s : State) (l : Nat) (c : McCmd) (d : McData) : State :=
  let s1 := (s.restoreLine l c d).mcDone l c
  match c.use with
  | .op id => match s1.op? l id with
    | some o => s1.opWriteError l o
    | none => s1
  | .evRing i => s1.evProdFail i c.addr
  | .evRec i =>
    let off := (s.hpar .evtBase + 64 * (i % s.evN)) % 128
    s1.evRecFail i (byt d.data.toNat (off + 63) off)
  | .fsigRing seq =>
    let off := (s.hpar .fsigBase + 64 * (seq % 1024)) % 128
    s1.fsRingFail c.addr seq (byt d.data.toNat (off + 63) off)
  | .replay _ => (s1.replayErr l c.addr).fatalL l
  | _ => s1.fatalL l

end Sys2Proof.Machine
end

