-- ==== Sys2Proof/Machine/Steps.lean ====
section
/-! DEFINITION. Step transactions (R97 to R135): starting, closing, clearance and mooring, votes and relays, course records,
abort and replay. -/

namespace Sys2Proof.Machine

/-- What becomes of a manifest (R51, R53): it has acted; it waits for a condition of its type; it is rejected, with the event
its rule names already raised; or it is rejected with FORMAT_ERROR, check code 7. -/
inductive ManOut where
  | done (s : State)
  | wait (s : State)
  | reject (s : State)
  | bad (s : State)
  deriving DecidableEq, Repr

/-- Fields of a manifest (R48). -/
def manType (m : Nat) : Nat := byt m 1 0
def manSeq (m : Nat) : Nat := byt m 7 4
def manJob (m : Nat) : Nat := byt m 9 8
def manEpoch (m : Nat) : Nat := byt m 15 12
def manEffect (m : Nat) : Nat := byt m 23 16
def manStep (m : Nat) : Nat := byt m 29 24

/-! ## Lines of a tensor (R181) -/

/-- The lines of a tensor over the harbour, those of a quay out of service among them (R181). -/
def State.tensorLines (s : State) (tag : Nat) : Nat := s.allQuays.foldl (fun a l => a + (s.confQuay l).tagLines tag) 0

/-! ## Closing and starting (R97 to R100) -/

/-- At the close of a step the touched lines of every tag must be none or all (R191). -/
def State.partialCheck (s : State) (step : Nat) : State :=
  let tags := ((s.opt.touched.filter (fun e => e.1.2.2 == step)).map (fun e => e.1.2.1)).eraseDups
  foldS tags (fun t s =>
    let n := (s.opt.touched.filter (fun e => e.1.2.1 == t && e.1.2.2 == step)).foldl (fun a e => a + e.2) 0
    let tot := s.tensorLines t
    if n == 0 || n == tot then s else (s.evH .optPartial [(12, t), (32, sat32 n), (32, sat32 tot)]).requestAbort step) s

/-- Close the open step (R100); the TOUCHED counts go on the numerics class (R191). -/
def State.closeOpen (s : State) : State :=
  if !s.steps.opened then s else
  let st := s.steps.last
  let s1 := (s.partialCheck st).modStep st (fun r => { r with state := .closed })
  let share : NumShare := { step := st, state := 1, attempt := s.steps.aborts.get 0 st }
  let s2 := { s1 with steps := { s1.steps with opened := false }, num := { s1.num with pending := s1.num.pending ++ [share] } }
  let s3 := if s.opt.touched.isEmpty then s2 else foldS s.lquays (fun l s => s.ringTo l 0 5 (.numerics st)) s2
  foldS s.lquays (fun l s => (s.closeStep l st true).segState l st 2) s3

/-- Open a step's segment on a position; when a fifth would be needed the flush pins are dropped first (R140). -/
def State.openSeg (s : State) (l step : Nat) : State :=
  (if (s.port l).log.freeSlot.isNone then s.dropPins else s).segOpen l step

/-- A step starts: the step before is closed, the record opens with the abort and taints asked for it, and every quay opens its log segment
(R97, R98, R100, R103). -/
def State.startStep (s : State) (m : Nat) : State :=
  let st := manStep m
  let cursor := byt m 39 32
  let adv := byt m 43 40
  let s1 := s.closeOpen
  let r : StepRec := { no := st, cursor := cursor, adv := adv, mbi := byt m 51 44, skip := bitOf m 417, start := s.tide.now,
                       taints := s.steps.early.get [] st, abortReq := b2n (s.steps.askAbort.find st).isSome, reason := s.steps.askAbort.get 0 st }
  let len := if s.steps.lastStart == 0 then none else some (s.clock - s.steps.lastStart)
  let s2 := { s1 with steps := { s1.steps with last := st, opened := true, recs := s1.steps.recs ++ [r],
                                               expCursor := (cursor + adv) % 2 ^ 64, restored := false, unknown := false,
                                               lastStart := s.clock, lastLen := len,
                                               askAbort := s1.steps.askAbort.del st, early := s1.steps.early.del st } }
  foldS s.lquays (fun l s => s.openSeg l st) s2.nwRefreshAll

/-- STEP_START (R97, R98, R99, R100, R134, R135). A standby's image gives no last started step, so its first step-start may name any later step
and any cursor (log 49). A step-start with CLOSE starts no step, and the length of R88 runs past it (log 67). -/
def State.manStepStart (s : State) (m : Nat) : ManOut :=
  let st := manStep m
  let cursor := byt m 39 32
  let adv := byt m 43 40
  let close := bitOf m 416
  let skip := bitOf m 417
  if s.ident.gen then .reject (s.evH .role [(16, manType m)])
  else if s.job.phase != .ready then .wait s
  else if st != s.steps.last + 1 && !(s.steps.unknown && decide (s.steps.last < st) && s.steps.aborts.isEmpty && !s.steps.anyMoored) then .reject (s.evH .stepOrder [(48, st)])
  else if close && adv != 0 then .reject (s.evH .formatError [(32, 0), (32, manSeq m), (32, 7), (16, manType m)])
  else if s.opt.shares.any (fun b => b.step + 1 == st) then .wait s
  else if close then .done s.closeOpen
  else if s.steps.recs.any (fun r => r.no + 1 < st || r.no == st || r.state == .aborting) then .wait s
  else if s.refr.running.any (fun r => r.step + 2 ≤ st) then .wait s
  else if s.steps.restored && cursor != s.steps.expCursor then .reject (s.evH .restoreRefused [])
  else if !s.steps.unknown && (cursor < s.steps.expCursor || (s.steps.expCursor < cursor && !skip)) then
    .reject (s.evH .cursorMismatch [(64, cursor), (64, s.steps.expCursor)])
  else .done (s.startStep m)

/-- STEP_ABORT (R101); for a step not started here the request is kept, to be carried in its clearance contribution. R126 speaks of one manifest
for a step: where several were read, STEP_ABORTED shows the REASON of the last one accepted: DESIGN CHOICE, unsafe (log 119). -/
def State.manStepAbort (s : State) (m : Nat) : ManOut :=
  let st := manStep m
  if s.ident.gen then .reject (s.evH .role [(16, manType m)])
  else match s.stepRec st with
    | some r =>
      if r.state == .aborting then .done s
      else if r.moorSent then .reject (s.evH .abortLate [(48, st), (16, byt m 33 32)])
      else .done ((s.requestAbort st).modStep st (fun r => { r with reason := byt m 33 32 }))
    | none => if s.steps.anyMoored && decide (st ≤ s.steps.moored) then .reject (s.evH .abortLate [(48, st), (16, byt m 33 32)])
      else if s.wasAborted st then .done s
      else .done { s with steps := { s.steps with askAbort := s.steps.askAbort.set st (byt m 33 32) } }

/-! ## Clearance and mooring tallies (R111 to R121) -/

/-- A count as FP32, saturated at 65,535 (R112). -/
def countF32 (n : Nat) : Nat := f32Bits { neg := false, m := min n 65535, e := 0 }

/-- A tally line from its elements. -/
def tallyLine (es : List Nat) : Line := BitVec.ofNat 1024 (pack (es.map (fun e => (32, e))))

/-- NF of a step over the quays. -/
def StepRec.nfSum (r : StepRec) : Nat := r.nf.foldl (fun a e => a + e.2) 0

/-- Whether a step of the device has been moored. -/
def State.isMoored (s : State) (no : Nat) : Bool := s.steps.anyMoored && decide (no ≤ s.steps.moored)

/-- The abort requests that a tally contribution for a step carries: those made for it, and one once a lost stripe has been found (R111, R160). -/
def State.abortCount (s : State) (r : StepRec) : Nat := r.abortReq + b2n s.steps.stickyAbort

/-- The clearance contribution of a step, once it can be made (R112, R113, R129): after its step-start here. -/
def State.clearanceLine (s : State) (no : Nat) : Option Line :=
  match s.stepRec no with
  | some r =>
    if r.state == .aborting then some (tallyLine [0, 0, 0, countF32 1, 0, countF32 1, 0])
    else some (tallyLine [countF32 r.nfSum, countF32 r.taints.length, countF32 (s.abortCount r), countF32 1, 0, 0, 0])
  | none =>
    if s.isMoored no then some (tallyLine [0, 0, 0, countF32 1, countF32 1, 0, 0])
    else if s.wasAborted no then some (tallyLine [0, 0, 0, countF32 1, 0, countF32 1, 0])
    else none

/-- The positions of a device's convoys whose vote it needs: every other member. -/
def State.votePositions (s : State) : List (Nat × Nat) :=
  s.convoys.flatMap (fun c => ((List.range c.n).filter (fun x => x != c.pos)).map (fun x => (c.idx, x)))

/-- Whether every relay of a fenced position's vote has come, from every survivor (R119). -/
def State.relayComplete (s : State) (r : StepRec) (c x : Nat) : Bool :=
  let cv := s.convoy c
  let surv := (s.otherPos cv).filter (fun y => y != x && !r.relayDue.contains (c, y))
  surv.all (fun y => r.relays.contains (c, x, y))

/-- Whether a fenced member's vote turned out held by nobody (R120). -/
def State.voteLost (s : State) (r : StepRec) : Bool :=
  r.relayDue.any (fun e => (r.votes.find e).isNone && s.relayComplete r e.1 e.2)

/-- Whether this device's own vote lighters of a step are sealed. -/
def State.votesSealed (s : State) (no : Nat) : Bool :=
  !(s.lquay 0).conv.sent.any (fun g => g.step == no && (match g.kind with
    | .vote vk .. => vk == 1 && !g.isSealed
    | .delta _ => false))

/-- The mooring contribution of a step, by the rows of R120. -/
def State.mooringLine (s : State) (no : Nat) : Option Line :=
  match s.stepRec no with
  | none =>
    if s.isMoored no then some (tallyLine [0, 0, 0, 0, countF32 1, 0, 0])
    else if s.wasAborted no then some (tallyLine [0, 0, 0, 0, 0, countF32 1, 0])
    else none
  | some r =>
    if r.state == .aborting then some (tallyLine [0, 0, 0, 0, 0, countF32 1, 0])
    else
      let t := countF32 r.taints.length
      let a := countF32 (s.abortCount r)
      let own := s.convoys.any (fun c => r.relayDue.contains (c.idx, c.pos))
      if own then
        let held := s.convoys.all (fun c => !r.relayDue.contains (c.idx, c.pos) || (r.votes.find (c.idx, c.pos)).isSome)
        if held && s.salv.all (·.started) then some (tallyLine [0, t, a, countF32 1, 0, 0, 0])
        else if s.voteLost r then some (tallyLine [0, t, a, 0, 0, 0, countF32 1]) else none
      else if (r.state == .ready || r.state == .tallied) && s.votesSealed no && s.votePositions.all (fun e => (r.votes.find e).isSome) then
        some (tallyLine [0, t, a, countF32 1, 0, 0, 0])
      else if s.voteLost r then some (tallyLine [0, t, a, 0, 0, 0, countF32 1])
      else none

/-! ## Course records (R130 to R133) -/

/-- MDIGEST of a record: SHA-256 of the previous record's MDIGEST and the record's first 64 bytes (R132). -/
def mdigest (prev : Line) (head : Nat) : Nat :=
  ofBytes (sha256x96 ((bytesOf 128 prev.toNat).drop 64 |>.take 32 |>.append (bytesOf 64 head)))

/-- The candidate record of a step (R130). -/
def State.courseRecord (s : State) (r : StepRec) : Line :=
  let sd := r.sdig.foldl (fun a e => (a + e.2) % 2 ^ 64) 0
  let head := pack [(16, s.job.tag), (48, r.no), (64, s.job.seed), (64, r.cursor), (64, r.mbi), (32, r.adv),
    (20, s.ident.device), (4, 0), (1, b2n r.skip), (1, b2n r.tolNf), (6, 0), (64, s.tide.now), (32, s.job.epoch),
    (32, s.steps.aborts.get 0 r.no), (64, sd)]
  BitVec.ofNat 1024 (withCrc 128 (head + (mdigest s.steps.prevRec head) <<< 512))

/-- The step-0 record of a job (R132). -/
def stepZero (job seed cursor : Nat) : Line :=
  let head := pack [(16, job), (48, 0), (64, seed), (64, cursor)]
  BitVec.ofNat 1024 (withCrc 128 (head + (mdigest 0 head) <<< 512))

/-- Address of the replicas of a convoy and position (R133). -/
def State.replicaAddr (s : State) (c x : Nat) : Nat := s.hpar .recBase + 3 * 4096 + 256 * (c * 34 + x)

/-- Store a replica: the last two, older first; with one alone the older place holds zeros (R133, log 72). -/
def State.putReplica (s : State) (c x : Nat) (r : Line) : State :=
  let ls := ((s.steps.replicas.get [] (c, x)) ++ [r]).reverse.take 2 |>.reverse
  let s1 := { s with steps := { s.steps with replicas := s.steps.replicas.set (c, x) ls } }
  let two := if ls.length < 2 then 0 :: ls else ls
  s1.ownWrite 0 (s.replicaAddr c x) 256 ((two.getD 0 0).toNat + (two.getD 1 0).toNat <<< 1024)

/-- Write the record of a step that moors. -/
def State.putRecord (s : State) (r : Line) : State := s.writeRecords (s.steps.records ++ [r])

/-! ## Votes and relays (R118, R119) -/

/-- The oldest closed step, when its votes may go (R118). -/
def State.voteStep (s : State) : Option StepRec :=
  match s.steps.recs with
  | [] => none
  | r :: _ =>
    if r.state == .closed && s.lquays.all (fun l => r.sealedBy.contains l) && r.clr == .clean && r.taints.isEmpty &&
      !s.tide.lost && s.reliefs.all (fun x => x.st == .inService) &&
      (List.range s.fit.nActive).all (fun l => (s.phys l).isSome) && s.salv.all (·.started) then some r else none

/-- A vote slot sends the vote lighters of the oldest closed step (R118). -/
def State.sendVotes (s : State) : State :=
  match s.voteStep with
  | none => s
  | some r =>
    let rec0 := r.cand.getD (s.courseRecord r)
    let s1 := (s.modStep r.no (fun r => { r with state := .ready, cand := some rec0 })).ringCast 0 2 (.voted r.no)
    foldS s.convoys (fun c s => foldS (s.otherPos c) (fun x s => s.sendVote c x r.no 1 c.pos (some rec0) 0 0) s) s1

/-- Whether every write of a closed step on a position has passed stage 9 of R29: no later lighter of it can form. -/
def State.stepPast (s : State) (l no : Nat) : Bool :=
  (s.stepRec no).any (fun r => r.state != .opened) && (s.lquay l).ops.all (fun o => o.step != some no || o.stage == .withheld)

/-- VOTE_REPORT: a quay reports a closed step sealed, its share of numeric clearance clean, on the vote class (R22, R23, R87). -/
def State.voteReport (s : State) (l no : Nat) : State :=
  if s.stepPast l no && s.stepSealed l no && s.serving l && ((s.stepRec no).map (fun r => r.nf.get 0 l)).getD 0 == 0 then
    (s.modStep no (fun r => { r with sealedBy := if r.sealedBy.contains l then r.sealedBy else l :: r.sealedBy })).ringTo l 0 2 (.sealed no)
  else s

/-- A standby first hears of an unmoored step: it keeps a record of it, closed, for the relays (R119, R120). -/
def State.standbyStep (s : State) (no : Nat) : State :=
  if (s.stepRec no).isSome || s.isMoored no || !s.job.standby then s else
  { s with steps := { s.steps with last := max s.steps.last no, recs := sortBy (fun a b => decide (a.no ≤ b.no)) ({ no := no, state := .closed, relayDue := s.convoys.map (fun c => (c.idx, c.pos)) } :: s.steps.recs) } }

/-- Keep a vote of a position; a second one with another record is a mismatch and the first is kept (R118), the replica of a moored step
too, which is sent to the position's device, so that it refuses a restore of another record (R413, log 76). -/
def State.keepVote (s : State) (no c x : Nat) (rec0 : Line) : State :=
  let bad := fun (s : State) => s.evH .recordMismatch [(48, no), (20, (s.convoy c).dev x)]
  match s.stepRec no with
  | none =>
    match (s.steps.replicas.get [] (c, x)).find? (fun v => byt v.toNat 7 2 == no) with
    | some old =>
      if !s.isMoored no || old = rec0 then s
      else (bad s).sendVote (s.convoy c) x no 2 x (some old) 0 0
    | none => s
  | some r =>
    match r.votes.find (c, x) with
    | some old => if old = rec0 then s else bad s
    | none => s.modStep no (fun r => { r with votes := r.votes.set (c, x) rec0 })

/-- Refuse a restore: logged once, and the job does not become ready (R135, R413). -/
def State.restoreRefuse (s : State) : State :=
  let s1 := { s with job := { s.job with restoreBad := true } }
  if s.job.restoreBad then s1 else s1.evH .restoreRefused []

/-- A relay of a record during a restore (R412 step 5): kept until this device has restored its replicas, then compared with the one for
that position; a member answers a different one with its replica, and a device whose own record differs from a member's replica refuses
the restore (R135, R413, log 76). -/
def State.restoreRelay (s : State) (c x no : Nat) (rec0 : Line) : State :=
  if !s.steps.restored then { s with locker := { s.locker with relays := s.locker.relays ++ [(c, x, no, rec0)] } }
  else if x != (s.convoy c).pos then s.keepVote no c x rec0
  else if s.steps.moored == no && s.steps.prevRec != rec0 then s.restoreRefuse
  else s

/-- A vote arrives (VKIND 1), or a relay with or without a record (2, 3), from position `x` of convoy `c` (R118, R119). -/
def State.voteIn (s : State) (c x vk vpos no : Nat) (rec0 : Line) : State :=
  match vk with
  | 1 => s.keepVote no c vpos rec0
  | _ =>
    if vk == 2 && s.job.phase == .starting && s.job.locker && !s.job.standby then s.restoreRelay c vpos no rec0 else
    let s0 := s.standbyStep no
    let s1 := if vk == 2 then s0.keepVote no c vpos rec0 else s0
    s1.modStep no (fun r => { r with relays := (c, vpos, x) :: r.relays.filter (· ≠ (c, vpos, x)) })

/-- Send the relays for a fenced position: for each unmoored step to every other member, the standby included (R119). -/
def State.sendRelays (s : State) (c : Convoy) (x : Nat) : State :=
  foldS s.steps.recs (fun r s =>
    let s1 := s.modStep r.no (fun r => { r with relayDue := (c.idx, x) :: r.relayDue.filter (· ≠ (c.idx, x)) })
    foldS (s1.otherPos c) (fun y s => match r.votes.find (c.idx, x) with
      | some v => s.sendVote c y r.no 2 x (some v) 0 0
      | none => s.sendVote c y r.no 3 x none 0 0) s1) s

/-! ## Results (R113, R121, R122) -/

/-- Abort a step and every later unmoored one: they become ABORTING, the current step falls back, lighters of them close
without copies, their segments are marked (R97, R123, R124). Convoys with a member fenced since a step began are restored from their
snapshots (R127). Requests and taints for later steps not started here go with them (log 74). -/
def State.beginAbort (s : State) (no cause : Nat) : State :=
  let go := s.steps.recs.filter (fun r => decide (no ≤ r.no) && r.state != .aborting)
  if go.isEmpty then s else
  let cur := (s.stepRec no).map (·.cursor)
  let openStep := if s.steps.opened && go.any (fun r => r.no == s.steps.last) then some s.steps.last else none
  let f := fun (r : StepRec) => { r with state := .aborting, cause := if r.no == no then cause else 3,
                                         restore := s.lquays.flatMap (fun l => r.fencedIn.map (fun c => (l, c))) }
  let share := openStep.map (fun x => ({ step := x, state := 3, attempt := s.steps.aborts.get 0 x } : NumShare))
  let s1 := { s with
    steps := { s.steps with recs := mapIf (fun r => decide (no ≤ r.no) && r.state != .aborting) f s.steps.recs,
                            last := min s.steps.last (no - 1), opened := s.steps.opened && openStep.isNone,
                            expCursor := cur.getD s.steps.expCursor,
                            askAbort := s.steps.askAbort.filter (fun e => decide (e.1 < no)), early := s.steps.early.filter (fun e => decide (e.1 < no)) },
    num := { s.num with pending := s.num.pending ++ share.toList },
    opt := { s.opt with shares := s.opt.shares.filter (fun b => b.step < no), touched := s.opt.touched.filter (fun e => decide (e.1.2.2 < no)) } }
  let s2 := foldS (go.filter (fun r => r.state != .opened)) (fun r s => s.nwState r.no 3) s1
  foldS s.lquays (fun l s => foldS go.reverse (fun r s => ((s.segState l r.no 3).closeStep l r.no false).abortWaiting l r.no) s) s2

/-- A clearance result (R113, R100): elements of the tally line. -/
def State.clearanceResult (s : State) (no : Nat) (x : Line) : State :=
  let e := fun i => fld x.toNat (32 * i + 31) (32 * i)
  let z := fun i => e i % 2 ^ 31 == 0
  let clean := z 0 && z 1 && z 2 && z 5 && e 3 == countF32' s.job.learners
  match s.stepRec no with
  | none => s
  | some r =>
    if r.clr == .failed || r.state == .aborting then s
    else if clean then s.modStep no (fun r => { r with clr := .clean })
    else
      let s1 := s.modStep no (fun r => { r with clr := .failed })
      if r.moorSent then (s1.evH .abortLate [(48, no), (16, r.reason)]).requestAbort no else s1.beginAbort no 1
where
  countF32' (n : Nat) : Nat := f32Round { neg := false, m := n, e := 0 }

/-- Actions of a moor result, but for the refresh, which is set going by the caller (R122). -/
def State.moor (s : State) (r : StepRec) : State :=
  let own := s.convoys.find? (fun c => r.relayDue.contains (c.idx, c.pos))
  let rec0 := match own with
    | some c => r.votes.find (c.idx, c.pos)
    | none => r.cand
  let s1 := match rec0 with
    | some v => s.putRecord v
    | none => s
  let s2 := foldS r.votes (fun e s => s.putReplica e.1.1 e.1.2 e.2) s1
  let s3 := { s2 with steps := { s2.steps with moored := r.no, anyMoored := true, recs := s2.steps.recs.filter (fun x => x.no != r.no),
                                               askAbort := s2.steps.askAbort.filter (fun e => decide (r.no < e.1)), early := s2.steps.early.filter (fun e => decide (r.no < e.1)) } }
  let s4 := (foldS s3.lquays (fun l s => s.segRelease l r.no false) s3).nwState r.no 2
  State.evH { s4 with steps := { s4.steps with aborts := s4.steps.aborts.del r.no } } .stepMoored [(48, r.no)]

/-- A mooring result (R121): moor, or abort. Answers the step that moored. -/
def State.mooringResult (s : State) (no : Nat) (x : Line) : State × Option Nat :=
  let e := fun i => fld x.toNat (32 * i + 31) (32 * i)
  let z := fun i => e i % 2 ^ 31 == 0
  match s.stepRec no with
  | none => (s, none)
  | some r =>
    if r.state == .aborting then (s, none)
    else if !z 4 || (z 1 && z 2 && z 5 && z 6 && e 3 == f32Round { neg := false, m := s.job.learners, e := 0 }) then (s.moor r, some no)
    else (s.beginAbort no 2, none)

/-! ## Replay (R124 to R128) -/

/-- `n` bytes at a log offset, across the end of the ring and of the space. -/
def State.logRead (s : State) (l off n : Nat) : Nat :=
  let r := s.ringBytes l
  let sp := max (s.logSpace l) 1
  let o := off % sp
  let n1 := min n ((if o < r then r else sp) - o)
  s.readB l (s.logAddr l o) n1 + (if n1 == n then 0 else s.readB l (s.logAddr l ((o + n1) % sp)) (n - n1)) <<< (8 * n1)

/-- Whether a log entry can be used: its lines read without poison or error, and a close record passes its check (R106, R127). -/
def State.entryOk (s : State) (l : Nat) (e : LogEntry) : Bool :=
  (linesOf (s.logAddr l e.off) e.len).all (fun a => s.lineOk l a) &&
  (match e.body with
    | .close _ => crcOk 256 (s.logRead l e.off 256)
    | _ => true)

/-- Append an undo close record for a sent close record, and make its undo copies (R90, R107, R124). -/
def State.undoClose (s : State) (l : Nat) (e : LogEntry) (c : CloseRec) (ds : List LLine) : State :=
  let done := (s.port l).log.entries.any (fun x => match x.body with
    | .close y => y.undoOf == some e.off
    | _ => false)
  if c.ncopy == 0 || done then s else
  let cv := s.convoy c.convoy
  let id := (s.lquay l).conv.nextId
  let g : Lighter := { id := id, convoy := c.convoy, unit := c.unit, didx := c.didx, stripe := c.stripe, step := e.step, undo := true,
                       kind := .delta ds, copies := s.copiesOf l cv c.stripe, closeOff := (s.port l).log.head }
  let s1 := ((s.modLquay l (fun q => { q with conv := { q.conv with nextId := id + 1, sent := q.conv.sent ++ [g] } })).berthAlloc l 3 .lighter id .wait).1
  s1.logAppend l e.step (.close { c with undoOf := some e.off, lseqs := g.lseqs, ctide := s.tide.now, ncopy := g.copies.length, dpos := g.copies.map (·.dpos) }) (.lighter id)

/-- The deltas a close record names, from its line entries that read well, void ones left out; and the lines whose entries do not read
(R106, R127). -/
def State.closeDeltas (s : State) (l : Nat) (c : CloseRec) : List LLine × List Nat :=
  let got := c.loffs.filterMap (fun o => ((s.port l).log.entries.find? (fun x => x.off == o.2)).map (fun x => (o, x)))
  (got.filterMap (fun g => match g.2.body with
    | .line _ ln _ d false => if s.entryOk l g.2 then some { l := ln, delta := d, off := g.1.2 } else none
    | _ => none),
   got.filterMap (fun g => if s.entryOk l g.2 then none else some g.1.1))

/-- Lines of a unit whose log entries are lost: the holders of their stripe are asked to restore its parity, and each line is to be rebuilt, when
every aborting step is replayed, from that and the other members' reverted pieces; without snapshots the convoy is lost (R127, log 71). -/
def State.rebuildLost (s : State) (l convoy base : Nat) (lns : List Nat) : State :=
  let c := s.convoy convoy
  if lns.isEmpty then s
  else if s.lpar l .snapParity != 1 then s.stripeLost l convoy
  else
    let new := (lns.map (fun ln => (l, base + 128 * ln))).filter (fun e => !s.steps.rebuild.contains e)
    State.askRestore { s with steps := { s.steps with rebuild := s.steps.rebuild ++ new } } l convoy (c.stripeAt c.pos (((s.lquay l).dOf convoy base).getD 0))

/-- The lines whose log entries were lost, once no step but the oldest aborting one is left: demand salvage rebuilds each; those of lost stripes
stay (R127, R160). -/
def State.rebuildGo (s : State) : State :=
  let left := s.steps.rebuild.filter (fun e => !(s.lquay e.1).lostLines.contains e.2)
  foldS left (fun e s => s.demandSalvage e.1 e.2) { s with steps := { s.steps with rebuild := left } }

/-- Write the replay position of the segment in a slot. -/
def State.replayAt (s : State) (l slot unit rbatch left : Nat) : State :=
  let s1 := s.modSeg l slot (fun x => { x with runit := unit, rbatch := rbatch, left := left })
  match (s1.port l).log.segs.find? (fun x => x.slot == slot) with
  | some x => s1.logReplay l x
  | none => s1

/-- The next unit of a replay once close record `e` is reverted: its own while its chain goes on, else the one after. -/
def Log.nextUnit (g : Log) (slot : Nat) (c : CloseRec) : Nat :=
  if (g.closes slot).any (fun x => x.2.unit == c.unit && (g.batchOf x.1.off).isNone) then c.unit else c.unit + 1

/-- Write RBATCH, then the reverted lines of a close record with their shadow line; RUNIT advances and RBATCH clears once the channel port
has accepted them all (R124). Reverted writes count in the lock-step digest (R358). -/
def State.revertLines (s : State) (l slot boff : Nat) (c : CloseRec) (base : Nat) (ds : List LLine) : State :=
  let sh := (s.convoy c.convoy).shadowAddr l (((s.lquay l).dOf c.convoy base).getD 0)
  if ds.isEmpty then s.replayAt l slot ((s.port l).log.nextUnit slot c) 0 0 else
  let s0 := s.replayAt l slot c.unit boff (ds.length + 1)
  let s1 := foldS ds (fun d s =>
    let a := base + 128 * d.l
    let x := s.readLine l a ^^^ d.delta
    ((s.lockAdd l s.lockNow a d.delta false).issueWrite l a fullMask x false (.replay slot)).shadowPut l sh d.l (lineCrc x)) s0
  s1.writeB l sh 128 (s1.shadowLine l sh).toNat (.replay slot)

/-- Revert one close record: undo copies, the replay batch record, the lines (R124). A record with lines whose entries do not read sends
no undo copies, and none goes where the convoy is restored from its snapshots instead (R127). -/
def State.replayClose (s : State) (l : Nat) (e : LogEntry) (c : CloseRec) : State :=
  match (s.lquay l).addrOfUnit c.unit with
  | none => s
  | some base =>
    let sh := (s.convoy c.convoy).shadowAddr l (((s.lquay l).dOf c.convoy base).getD 0)
    let ds := s.closeDeltas l c
    let snap := (s.stepRec e.step).any (fun r => r.fencedIn.contains c.convoy || r.snapped.contains (c.convoy, c.stripe))
    let s1 := if ds.2.isEmpty && !snap then s.undoClose l e c ds.1 else s
    let boff := (s1.port l).log.head
    let s2 := s1.logAppend l e.step (.batch c.lines.length e.off (c.lines.map (fun ln => s1.shadowCrc l sh ln))) .none
    let s3 := (s2.revertLines l e.slot boff c base ds.1).modStep e.step (fun r => { r with reverted := r.reverted.set l (r.reverted.get 0 l + ds.1.length) })
    s3.rebuildLost l c.convoy base ds.2

/-- A relief quay finds a batch in progress: a line whose shadow value still is the recorded one is reverted, another already was
(R128); one whose content no longer has that value was reverted before its shadow line was written. The replay has restarted, and after
RECOVERY_LIMIT restarts the lines are rebuilt from the snapshots instead (R376, R377). -/
def State.replayResume (s0 : State) (l no : Nat) (x : Seg) : State :=
  let g := (s0.port l).log
  let n := ((s0.stepRec no).map (fun r => r.restarts.get 0 l)).getD 0
  let st := s0.restart ((s0.phys l).getD 0) 0 no n
  let s := st.1.modStep no (fun r => { r with restarts := r.restarts.set l (n + 1) })
  match g.entries.find? (fun e => e.off == x.rbatch) with
  | none => s.replayAt l x.slot x.runit 0 0
  | some b => match b.body with
    | .batch _ off crcs =>
      match (g.closes x.slot).find? (fun e => e.1.off == off) with
      | none => s.replayAt l x.slot x.runit 0 0
      | some e => match (s.lquay l).addrOfUnit e.2.unit with
        | none => s
        | some base =>
          let sh := (s.convoy e.2.convoy).shadowAddr l (((s.lquay l).dOf e.2.convoy base).getD 0)
          let crc := fun (d : LLine) => crcs.getD (e.2.lines.idxOf d.l) 0
          let same := (s.closeDeltas l e.2).1.filter (fun d => s.shadowCrc l sh d.l == crc d)
          let whole := fun (d : LLine) => lineCrc (s.readLine l (base + 128 * d.l)) == crc d
          if st.2 then (s.replayAt l x.slot (g.nextUnit x.slot e.2) 0 0).rebuildLost l e.2.convoy base (e.2.lines) else
          let s1 := foldS (same.filter (fun d => !whole d)) (fun d s => s.shadowPut l sh d.l (lineCrc (s.readLine l (base + 128 * d.l)))) s
          s1.revertLines l x.slot b.off e.2 base (same.filter whole)
    | _ => s

/-- Go on with the replay of an aborting step's segment on a position, one close record after another as the channel port accepts them;
a close record that does not read is lost with the 32 lines of its unit (R124, R127). -/
def State.replaySeg (s : State) (l no : Nat) : State :=
  match (s.port l).log.segOf no with
  | none => s.modStep no (fun st => { st with replayed := l :: st.replayed })
  | some x0 =>
    let s0 := if x0.rbatch != 0 && x0.left == 0 then s.replayResume l no x0 else s
    let s1 := foldS ((s0.port l).log.closes x0.slot) (fun e s =>
      let busy := (s.port l).log.segs.any (fun x => x.slot == x0.slot && x.left != 0)
      if busy || ((s.port l).log.batchOf e.1.off).isSome then s
      else if s.entryOk l e.1 then s.replayClose l e.1 e.2
      else match (s.lquay l).addrOfUnit e.2.unit with
        | none => s
        | some base =>
          ((s.logAppend l no (.batch 0 e.1.off []) .none).replayAt l x0.slot ((s.port l).log.nextUnit x0.slot e.2) 0 0).rebuildLost l e.2.convoy base (List.range 32)) s0
    let g := (s1.port l).log
    if g.segs.any (fun x => x.slot == x0.slot && x.left != 0) || (g.closes x0.slot).any (fun e => (g.batchOf e.1.off).isNone && ((s1.lquay l).addrOfUnit e.2.unit).isSome) then s1
    else (s1.shadowFlushAll l).modStep no (fun st => { st with replayed := l :: st.replayed })

/-- A reverted line is accepted; with the last of its batch the replay position advances (R124). -/
def State.replayAcked (s : State) (l slot : Nat) : State :=
  match (s.port l).log.segs.find? (fun x => x.slot == slot) with
  | none => s
  | some x =>
    if 1 < x.left then s.modSeg l slot (fun x => { x with left := x.left - 1 })
    else
      let g := (s.port l).log
      let c := (g.entries.find? (fun e => e.off == x.rbatch)).bind (fun b => match b.body with
        | .batch _ off _ => (g.closes slot).find? (fun e => e.1.off == off)
        | _ => none)
      s.replayAt l slot ((c.map (fun e => g.nextUnit slot e.2)).getD x.runit) 0 0

/-- Whether an operation of a step is past its log append (its write has still to end). -/
def State.stepBusy (s : State) (l no : Nat) : Bool :=
  (s.lquay l).ops.any (fun o => o.step == some no && (o.stage == .logging || o.stage == .writing))

/-- Whether a quay under relief has still to replay. -/
def State.replayLeft (s : State) (r : StepRec) : List Nat := (List.range s.fit.nActive).filter (fun l => !r.replayed.contains l && ((s.phys l).isSome || s.reliefs.any (fun x => x.lq == l && x.st != .inService)))

/-- Whether a snapshot restore of these steps is still waiting for answers. -/
def State.restoring (s : State) (l no : Nat) : Bool := (s.lquay l).conv.resets.any (fun x => x.restore.contains no)

/-- Go on with the aborting steps, newest first: replay where no write is under way, then write back the snapshots of the convoys to be
restored; when all has been replayed, restored, and every undo copy is sealed, release the segment and log STEP_ABORTED (R100, R124,
R125, R126, R127). -/
def State.abortGo (s : State) : State :=
  let no? := ((s.steps.recs.filter (fun r => r.state == .aborting)).map (·.no)).foldl (fun a n => some (max (a.getD 0) n)) (none : Option Nat)
  match no? with
  | none => s
  | some no =>
    match s.stepRec no with
    | none => s
    | some r =>
      let s1 := foldS (s.replayLeft r) (fun l s => if (s.phys l).isNone || s.stepBusy l no then s else (s.closeStep l no false).replaySeg l no) s
      let due := ((s1.stepRec no).map (fun r => r.restore.filter (fun e => r.replayed.contains e.1))).getD []
      let s2 := foldS due (fun e s => (s.modStep no (fun r => { r with restore := r.restore.filter (· ≠ e) })).restoreConvoy e.1 e.2 [no]) s1
      match s2.stepRec no with
      | none => s2
      | some r1 =>
        if (s2.replayLeft r1).isEmpty && !s2.steps.rebuild.isEmpty && (s2.steps.recs.filter (fun r => r.state == .aborting)).length ≤ 1 then s2.rebuildGo
        else if (s2.replayLeft r1).isEmpty && s2.lquays.all (fun l => s2.stepSealed l no && !s2.restoring l no) then
          let s3 := foldS s2.lquays (fun l s =>
            let s' := match s.phys l with
              | some p => s.evRaise p p .stepAborted 1 no (pack [(8, r1.cause), (8, 0), (16, r1.reason), (32, sat32 (r1.reverted.get 0 l))])
              | none => s
            s'.segRelease l no true) s2
          { s3 with steps := { s3.steps with recs := s3.steps.recs.filter (fun x => x.no != no), aborts := s3.steps.aborts.set no (s3.steps.aborts.get 0 no + 1) } }
        else s2

end Sys2Proof.Machine
end

