-- ==== Sys2Proof/Machine/Optimizer.lean ====
section
/-! DEFINITION. The fused optimizer (R180 to R204): descriptors, buckets, the clearance gate, the arithmetic and the shadow
lanes. -/

namespace Sys2Proof.Machine

/-! ## Local sequences (R181) -/

/-- The address of a byte of a tag's local sequence. -/
def tagByte : List Region → Nat → Option Nat
  | [], _ => none
  | r :: t, n => if n < r.size * 4096 then some (r.base * 4096 + n) else tagByte t (n - r.size * 4096)

/-- The address of local byte `n` of a tag. -/
def Quay.tagAddr (q : Quay) (tag n : Nat) : Option Nat := tagByte (q.tagRegions tag) n

/-- Elements of a tag's local sequence. -/
def Quay.tagElems (q : Quay) (tag : Nat) : Nat :=
  (q.tagRegions tag).foldl (fun a r => a + r.size * 4096 * 8 / max r.ew 1) 0

/-- The tensor line index of a quay's first line of a tag (R181). -/
def State.tagFirst (s : State) (l tag : Nat) : Nat :=
  ((s.allQuays.filter (fun x => decide (x < l))).map (fun x => (s.confQuay x).tagLines tag)).foldl (· + ·) 0

/-! ## Descriptors (R183 to R185) -/

/-- Read a descriptor from a manifest's payload (R183). DESIGN CHOICE (log 109): LR_EXP is used as the signed byte it is; one outside −64 to +63
is not refused, for no check of R184 names it. -/
def Desc.ofMan (m : Nat) : Desc :=
  let tag := fun v => if bitOf v 15 then some (v % 4096) else none
  { kind := byt m 34 34, sparse := bitOf (byt m 35 35) 0, bc := bitOf (byt m 35 35) 1, m1 := tag (byt m 37 36),
    m2 := tag (byt m 39 38), grad := byt m 41 40 % 4096, lrExp := signed 8 (byt m 42 42), beta1 := byt m 47 44,
    beta2 := byt m 51 48, eps := byt m 55 52, wd := byt m 59 56, mu := byt m 63 60, birth := byt m 69 64 }

/-- A coefficient in [0, 1). -/
def unitCoef (v : Nat) : Bool := match f32 v with
  | some x => !x.neg && x.below 0 || x.m == 0
  | none => false

/-- Finite and not negative. -/
def nonNeg (v : Nat) : Bool := match f32 v with
  | some x => !x.neg || x.m == 0
  | none => false

/-- The moment tags a descriptor uses. -/
def Desc.moments (d : Desc) : List Nat := d.m1.toList ++ d.m2.toList

/-- The check of R184 that fails first, as its event. DESIGN CHOICE (log 108): a descriptor whose GRAD_TAG is not present, which R183 asks for, is
rejected with OPT_PARAM, as one with the wrong moments is. DESIGN CHOICE, unsafe (log 131): a field that R183 calls 0 for the kind is not checked,
and one that is not finite there makes every element one with a non-finite result. -/
def State.descCheck (s : State) (dtag : Nat) (d : Desc) (gradOn : Bool) : Option Evt :=
  let tags := [dtag, d.grad] ++ d.moments
  let regs := fun (l t : Nat) => (s.confQuay l).tagRegions t
  let momOk := if d.kind == 2 then d.m1.isSome && d.m2.isSome else d.m1.isSome && d.m2.isNone
  let protOk := s.allQuays.all (fun l => (dtag :: d.moments).all (fun t => (regs l t).all (fun r => r.kind == 1 && r.fmt == 2)))
  let gfs := (s.allQuays.flatMap (fun l => (regs l d.grad).map (·.fmt))).eraseDups
  let gradOk := s.allQuays.all (fun l => (regs l d.grad).all (fun r => r.kind == 2)) && decide (gfs.length ≤ 1) && gfs.all (fun f => decide (1 ≤ f) && decide (f ≤ 3))
  let cntOk := s.allQuays.all (fun l => (d.grad :: d.moments).all (fun t => (s.confQuay l).tagElems t == (s.confQuay l).tagElems dtag))
  let parOk := unitCoef d.beta1 && unitCoef d.beta2 && unitCoef d.mu && nonNeg d.wd &&
    (d.kind != 2 || (match f32 d.eps with
      | some x => !x.neg && x.m != 0
      | none => false))
  if !momOk || !gradOn then some .optParam
  else if !protOk then some .optShape
  else if !gradOk then some .optShape
  else if !cntOk then some .optShape
  else if !parOk then some .optParam
  else if tags.eraseDups.length != tags.length then some .optParam
  else none

/-- OPTIMIZER_DESCRIPTOR and its delete form (R180, R183 to R185). -/
def State.manOptDesc (s : State) (m : Nat) : ManOut :=
  let dtag := byt m 33 32 % 4096
  let d := Desc.ofMan m
  if s.ident.gen then .reject (s.evH .optRole [])
  else if 3 < d.kind then .bad s
  else if s.opt.shares.any (fun b => b.tag == dtag) then .wait s
  else if d.kind == 0 then .done { s with opt := { s.opt with descs := s.opt.descs.del dtag } }
  else match s.descCheck dtag d (bitOf (byt m 41 40) 15) with
    | some e => .reject (s.evH e [(12, dtag)])
    | none => .done { s with opt := { s.opt with descs := s.opt.descs.set dtag d } }

/-! ## Buckets (R188, R189) -/

/-- The check of R189 that fails first. DESIGN CHOICE, unsafe (log 130): an NLINES outside its range fails the range check; the spec names no event
for it. -/
def State.bucketCheck (s : State) (m : Nat) : Option Evt :=
  let dtag := byt m 33 32 % 4096
  let st := manStep m
  let n := byt m 43 40
  if s.steps.last != st then some .optStep
  else match s.opt.descs.find dtag with
    | none => some .optNodesc
    | some d =>
      if s.tensorLines dtag < byt m 39 36 + n || n == 0 || 2 ^ 24 < n then some .optRange
      else if !nonNeg (byt m 47 44) || (f32 (byt m 51 48)).isNone then some .optParam
      else if st < d.birth + 1 then some .optParam
      else none

/-- A bucket's lines go to the quays that hold them: each quay's share joins its queue, that of a quay under relief too, which runs once the relief
quay is in service (R189, R190). -/
def State.takeBucket (s : State) (m : Nat) (faults : List LaneFault) : State :=
  let dtag := byt m 33 32 % 4096
  let first := byt m 39 36
  let n := byt m 43 40
  let shares := s.standing.filterMap (fun l =>
    let b := s.tagFirst l dtag
    let k := (s.confQuay l).tagLines dtag
    let lo := max first b
    let hi := min (first + n) (b + k)
    if lo < hi then some ({ bk := s.opt.buckets, pos := l, tag := dtag, step := manStep m, next := lo - b, left := hi - lo, first := b, lr := byt m 47 44, gscale := byt m 51 48,
                            admitted := false, done := 0 } : Share) else none)
  { s with opt := { s.opt with shares := s.opt.shares ++ shares, buckets := s.opt.buckets + 1, faults := s.opt.faults ++ faults } }

/-- OPTIMIZER_BUCKET (R180, R188 to R190). -/
def State.manBucket (s : State) (m : Nat) (faults : List LaneFault) : ManOut :=
  let dtag := byt m 33 32 % 4096
  let st := manStep m
  if s.ident.gen then .reject (s.evH .optRole [])
  else match s.bucketCheck m with
    | some e =>
      let s1 := s.evH e [(12, dtag)]
      .reject (if s.liveStep st then s1.requestAbort st else s1)
    | none => .done (s.takeBucket m faults)

/-! ## Arithmetic (R192 to R201) -/

/-- binary64 operations; a result beyond the range ends the element. -/
def mul64 (x y : Fp) : Option Fp := rne64 (x.mul y)

/-- dpow: a factor to the power `t` by squaring, ascending bits (R193). -/
def dpowAux : Nat → Fp → Fp → Nat → Option Fp
  | 0, _, f, _ => some f
  | n + 1, d, f, t => do
    let f' ← if t % 2 = 1 then mul64 f d else some f
    let d' ← mul64 d d
    dpowAux n d' f' (t / 2)
def dpow (d : Fp) (t : Nat) : Option Fp := dpowAux 48 d fpOne t

/-- The constants of a bucket (R196). -/
structure OptConst where
  lr   : Fp
  gs   : Fp
  b1   : Fp
  b2   : Fp
  a1   : Fp
  a2   : Fp
  c1   : Fp
  ik2  : Fp
  eps  : Fp
  wd   : Fp
  mu   : Fp
  rho  : Fp
  deriving DecidableEq, Repr

/-- Compute the constants (R196). -/
def optConst (d : Desc) (lr gs step : Nat) : Option OptConst := do
  let l ← f32 lr
  let g ← f32 gs
  let b1 ← f32 d.beta1
  let b2 ← f32 d.beta2
  let eps ← f32 d.eps
  let wd ← f32 d.wd
  let mu ← f32 d.mu
  let lr' ← rne32 (l.scale d.lrExp)
  let a1 ← rne32 (fpOne.sub b1)
  let a2 ← rne32 (fpOne.sub b2)
  let rho ← (← b2.sqrt) |> rne64
  let t := step - d.birth
  if d.bc && d.kind == 2 then
    let q1 ← rne64 (fpOne.sub (← dpow b1 t))
    let c1 ← rne32 (← rne64 (← fpOne.div q1))
    let q2 ← rne64 (← (← rne64 (fpOne.sub (← dpow b2 t))).sqrt)
    let k2 ← rne32 (← rne64 (← fpOne.div q2))
    return { lr := lr', gs := g, b1 := b1, b2 := b2, a1 := a1, a2 := a2, c1 := c1, ik2 := k2, eps := eps, wd := wd, mu := mu, rho := rho }
  else
    return { lr := lr', gs := g, b1 := b1, b2 := b2, a1 := a1, a2 := a2, c1 := fpOne, ik2 := fpOne, eps := eps, wd := wd, mu := mu, rho := rho }

/-- catch_up_one (R201). -/
def catchUp (d : Desc) (m f : Fp) (gap : Nat) : Option Fp :=
  if !d.sparse || gap == 0 then some m else do rne32 (m.mul (← dpow f gap))

/-- One element of AdamW (R197), from finite inputs; none when an intermediate value is not finite. -/
def adamw (d : Desc) (k : OptConst) (w m r g0 : Fp) (uw um ur gap : Nat) : Option (Nat × Nat × Nat) := do
  let g ← rne32 (g0.mul k.gs)
  let m ← catchUp d m k.b1 gap
  let r ← catchUp d r k.rho gap
  let m ← rne32 ((← rne32 (k.b1.mul m)).add (← rne32 (k.a1.mul g)))
  let rr ← rne32 (r.mul r)
  let gg ← rne32 (g.mul g)
  let v ← rne32 ((← rne32 (k.b2.mul rr)).add (← rne32 (k.a2.mul gg)))
  let r ← rne32 (← v.sqrt)
  let den ← rne32 ((← rne32 (r.mul k.ik2)).add k.eps)
  let u ← rne32 (← (← rne32 (m.mul k.c1)).div den)
  let dd ← rne32 (k.lr.mul (← rne32 (u.add (← rne32 (k.wd.mul w)))))
  return (srBf16 (w.sub dd) uw, srBf16 m um, srBf16 r ur)

/-- One element of SGD with momentum (R198). -/
def sgdMomentum (d : Desc) (k : OptConst) (w m g0 : Fp) (uw um gap : Nat) : Option (Nat × Nat × Nat) := do
  let g ← rne32 (g0.mul k.gs)
  let m ← catchUp d m k.mu gap
  let g ← rne32 (g.add (← rne32 (k.wd.mul w)))
  let m ← rne32 ((← rne32 (k.mu.mul m)).add g)
  let dd ← rne32 (k.lr.mul m)
  return (srBf16 (w.sub dd) uw, srBf16 m um, 0)

/-- One element of sign-momentum (R199). -/
def signMomentum (d : Desc) (k : OptConst) (w m g0 : Fp) (uw um gap : Nat) : Option (Nat × Nat × Nat) := do
  let g ← rne32 (g0.mul k.gs)
  let m ← catchUp d m k.b2 gap
  let c ← rne32 ((← rne32 (k.b1.mul m)).add (← rne32 (k.a1.mul g)))
  let sg : Fp := if c.m = 0 then fpZero else { neg := c.neg, m := 1, e := 0 }
  let dd ← rne32 (k.lr.mul (← rne32 (sg.add (← rne32 (k.wd.mul w)))))
  let m ← rne32 ((← rne32 (k.b2.mul m)).add (← rne32 (k.a2.mul g)))
  return (srBf16 (w.sub dd) uw, srBf16 m um, 0)

/-- The bits of an element's gradient in the stored format as a finite value. -/
def gradVal (fmt v : Nat) : Option Fp := (efmt fmt).bind (fun f => finOf f v)

/-- What one line of a bucket gives: the three lines, elements skipped, and whether a skipped input was not finite (R200). -/
structure OptOut where
  w    : Line
  m    : Line
  r    : Line
  nf   : Nat
  nfIn : Bool
  deriving DecidableEq, Repr

/-- The random 16 bits of element `e` of a line with the wake blocks of its stream (R195). -/
def srBits (blocks : List Nat) (e : Nat) : Nat := fld (blocks.getD (e / 8) 0) (16 * (e % 8) + 15) (16 * (e % 8))

/-- One parameter line of 64 elements (R197 to R201). -/
def optLine (d : Desc) (k : Option OptConst) (gfmt : Nat) (w m r : Line) (gs : List Nat) (bw bm br : List Nat) (gap : Nat) : OptOut :=
  let one := fun (e : Nat) =>
    let wb := fld w.toNat (16 * e + 15) (16 * e)
    let mb := fld m.toNat (16 * e + 15) (16 * e)
    let rb := fld r.toNat (16 * e + 15) (16 * e)
    let inOk := (bf16 wb).isSome && (bf16 mb).isSome && (d.kind != 2 || (bf16 rb).isSome)
    let res : Option (Nat × Nat × Nat) := do
      let k ← k
      let w ← bf16 wb
      let m ← bf16 mb
      let g ← gradVal gfmt (gs.getD e 0)
      match d.kind with
      | 1 => sgdMomentum d k w m g (srBits bw e) (srBits bm e) gap
      | 2 => do
        let r ← bf16 rb
        adamw d k w m r g (srBits bw e) (srBits bm e) (srBits br e) gap
      | _ => signMomentum d k w m g (srBits bw e) (srBits bm e) gap
    match res with
    | some x => (x, false, false)
    | none => ((wb, mb, rb), true, !inOk)
  let xs := (List.range 64).map one
  { w := ofLanes (xs.map (·.1.1)), m := ofLanes (xs.map (·.1.2.1)), r := ofLanes (xs.map (·.1.2.2)),
    nf := (xs.filter (·.2.1)).length, nfIn := xs.any (·.2.2) }

/-! ## Running shares (R187, R190, R115) -/

/-- Whether a share is this one: a bucket has one on each quay. -/
def Share.is (b x : Share) : Bool := x.bk == b.bk && x.pos == b.pos

/-- Change a share. -/
def State.modShare (s : State) (b b' : Share) : State := { s with opt := { s.opt with shares := mapIf b.is (fun _ => b') s.opt.shares } }

/-- End a share. -/
def State.dropShare (s : State) (b : Share) : State := { s with opt := { s.opt with shares := removeFirst b.is s.opt.shares } }

/-- Whether an input line of the optimizer reads sound; else its demand salvage is under way, or its stripe is lost. -/
inductive Input where
  | ok | wait | lost
  deriving DecidableEq, Repr

/-- The standing of a protected input line (R204). -/
def State.optInput (s : State) (l a : Nat) : Input :=
  if (s.lquay l).lostLines.contains a then .lost
  else if s.unsalvaged l a || !s.oldSound l a then .wait else .ok

/-- The wake blocks of the stream of a line (R137, R195). -/
def State.srBlocks (s : State) (l a step : Nat) : List Nat :=
  let c := s.convoy (((s.regionOf l a).map (·.convoy)).getD 0)
  let st := srStream c.pos l c.idx (((s.lquay l).unitOf a).getD 0) (a % 4096 / 128)
  (List.range 8).map (fun k => wake s.job.seed step st k)

/-- Enter the lines of an update in the open-line table, in the order of their lines (R190 stage 1). -/
def State.optEnter (s : State) (b : Share) (lines : List Nat) : State :=
  let n := (s.lquay b.pos).ordNo
  (s.modShare b { b with held := lines, ord := n }).modLquay b.pos (fun q => { q with ordNo := n + 1 })

/-- Whether a write of one of a share's lines that was there before it has still to issue its new line (R30, R190). -/
def State.optBehind (s : State) (b : Share) : Bool :=
  (s.lquay b.pos).ops.any (fun x => b.held.contains (lineOf x.addr) && !x.kind.isRead && !x.stage.issued &&
    x.ord.any (fun n => decide (n < b.ord)))

/-- Whether an operation on a share's lines is one of its own. -/
def State.optReady (s : State) (b : Share) : Bool := !b.held.isEmpty && !s.optBehind b

/-- Submit a full-line write of the optimizer (R190 stage 4). -/
def State.optWrite (s : State) (b : Share) (a : Nat) (x : Line) : State :=
  s.writeReq b.pos (.opt b.tag b.step) (.write fullMask x false) a false 0

/-- The state line of a tag (R186). -/
def State.optStateAddr (s : State) (l tag : Nat) : Nat := s.lpar l .optStateBase + 128 * tag

/-- Skip a line whose inputs cannot be used; an abort request is carried (R204). -/
def State.optSkip (s : State) (b : Share) : State :=
  (s.modShare b { b with next := b.next + 1, left := b.left - 1, resv := b.left - 1, held := [] }).requestAbort b.step

/-- Run the next line of a share whose state line is written: its lines are entered, earlier writes of them issue their new lines, and
then the update reads, computes and writes (R190). -/
def State.optRun (s : State) (b : Share) (d : Desc) (gap : Nat) : State :=
  let q := s.lquay b.pos
  let a := fun (t : Nat) => (q.tagAddr t (128 * b.next)).getD 0
  let ins := (b.tag :: d.moments).map a
  let st := ins.map (s.optInput b.pos)
  if b.held.isEmpty then s.optEnter b (s.optStateAddr b.pos b.tag :: ins)
  else if !s.optReady b then s
  else
  let s := foldS ins (fun x s => s.shadowData b.pos x) s
  if st.contains .lost then s.optSkip b
  else if st.contains .wait then foldS ins (fun x s => if s.optInput b.pos x == .wait then s.demandSalvage b.pos x else s) s
  else
    let gfmt := (((q.tagRegions d.grad).head?).map (·.fmt)).getD 2
    let gw := ((efmt gfmt).map (·.w)).getD 16
    let ga := (q.tagAddr d.grad (64 * b.next * gw / 8)).getD 0
    let glines := linesOf ga (64 * gw / 8)
    if glines.any (fun x => !s.lineOk b.pos x) then
      (s.sigL b.pos { cls := 8, unit := 4, addr := ga, step := some b.step }).optSkip b
    else
      let idx := b.first + b.next
      let fs := s.opt.faults.filter (fun f => f.quay == b.pos && f.line == idx)
      let u := (q.unitOf (a b.tag)).getD 0
      let shadowed := (u * 32 + a b.tag % 4096 / 128 + b.step) % 64 == 0
      let hit := fs.find? (fun f => f.residue || shadowed)
      let s0 := { s with opt := { s.opt with faults := s.opt.faults.filter (fun f => !fs.contains f) } }
      match hit with
      | some f =>
        let sg : SigArg := { cls := if f.residue then 0xC else 0xB, unit := 4, addr := idx, detail := f.elem, step := some b.step,
                             named := some (packArgs [(12, b.tag), (32, idx)]).1 }
        (s0.suspectL b.pos 4 sg).optSkip b
      | none =>
        let res := fun (u : Nat) => ({ cls := 0xC, unit := u, addr := idx, step := some b.step, named := some (packArgs [(12, b.tag), (32, idx)]).1 } : SigArg)
        let e4 := s0.unitErr b.pos 4 (res 4)
        let e5 := if shadowed then e4.1.unitErr b.pos 5 (res 5) else (e4.1, false)
        if e4.2 || e5.2 then e5.1.optSkip b else
        let rd := fun (t : Nat) => s0.readLine b.pos (a t)
        let m1 := d.m1.getD 0
        let m2 := d.m2.getD 0
        let gs := elems gw 64 (s0.readB b.pos ga (64 * gw / 8))
        let bl := fun (t : Nat) => s0.srBlocks b.pos (a t) b.step
        let o := optLine d (optConst d b.lr b.gscale b.step) gfmt (rd b.tag) (rd m1) (if d.m2.isSome then rd m2 else 0) gs
          (bl b.tag) (bl m1) (if d.m2.isSome then bl m2 else []) gap
        let s1 := (s0.countL b.pos 0x07 1 { addr := some (a b.tag) }).countL b.pos 0x1D o.nf { addr := some (a b.tag) }
        let s2 := if o.nfIn && !b.nfLogged then
            let s' := s1.evL b.pos .optNfState [(12, b.tag)]
            { s' with opt := { s'.opt with shares := mapIf (fun x => x.bk == b.bk) (fun x => { x with nfLogged := true }) s'.opt.shares } }
          else s1
        let b' := { b with next := b.next + 1, left := b.left - 1, done := b.done + 1, nfLogged := b.nfLogged || o.nfIn,
                           wait := if d.m2.isSome then 3 else 2 }
        let s3 := ((s2.modShare b b').optWrite b' (a b.tag) o.w).optWrite b' (a m1) o.m
        if d.m2.isSome then s3.optWrite b' (a m2) o.r else s3

/-- Read a share's state line and go on with it: entered and sound it is used, unsound it is salvaged, lost it ends the share (R190,
R204). -/
def State.optState (s : State) (b : Share) (k : Nat → State) : State :=
  let sa := s.optStateAddr b.pos b.tag
  if b.held.isEmpty then s.optEnter b [sa]
  else if !s.optReady b then s
  else
  let s := s.shadowData b.pos sa
  match s.optInput b.pos sa with
    | .wait => s.demandSalvage b.pos sa
    | .lost => (s.requestAbort b.step).dropShare b
    | .ok => k (s.readLine b.pos sa).toNat

/-- Prepare or finish a share: the state line before its first line and after its last (R187). -/
def State.optStep (s : State) (b : Share) : State :=
  match s.opt.descs.find b.tag with
  | none => s.dropShare b
  | some d =>
    let sa := s.optStateAddr b.pos b.tag
    match b.gap with
    | none =>
      s.optState b (fun v =>
        let last := byt v 5 0
        if last == b.step then s.modShare b { b with gap := some (b.step - byt v 11 6 - 1), held := [] }
        else
          let b' := { b with gap := some (b.step - last - 1), wait := 1 }
          (s.modShare b b').optWrite b' sa (BitVec.ofNat 1024 (pack [(48, b.step), (48, last), (32, 0)])))
    | some gap =>
      if b.left = 0 then
        if b.final then s.dropShare b
        else s.optState b (fun v =>
          let t := byt v 15 12 + b.done
          let key := (b.pos, b.tag, b.step)
          let b' := { b with final := true, wait := 1 }
          ({ s with opt := { s.opt with shares := mapIf b.is (fun _ => b') s.opt.shares,
                                        touched := s.opt.touched.set key (s.opt.touched.get 0 key + b.done) } } : State).optWrite b' sa
            (BitVec.ofNat 1024 (setFld v 127 96 t)))
      else s.optRun b d gap

/-- The clearance gate of a share, weighed against what is reserved for the shares admitted before it (R115). -/
def State.optGate (s : State) (b : Share) : Option Bool :=
  match s.stepRec b.step with
  | none => some false
  | some r =>
    if r.state == .aborting then some false else
    match r.clr with
    | .clean => some true
    | .failed => some false
    | .unknown =>
      let res := ((s.opt.shares.filter (fun x => x.pos == b.pos && x.step == b.step && x.admitted)).map (fun x => x.resv * 144)).foldl (· + ·) 0
      if r.spec.get 0 b.pos + res + b.left * 144 ≤ s.lpar b.pos .logSpecLimit * 2 ^ 20 then some true else none

/-- The gate of a quay, in the order of its shares: each not admitted passes it and reserves its bytes, is discarded, or waits with those behind
it (R115). `n` bounds the shares looked at. -/
def State.optAdmit (s : State) (l : Nat) : Nat → State
  | 0 => s
  | n + 1 =>
    match s.opt.shares.find? (fun b => b.pos == l && !b.admitted) with
    | none => s
    | some b => match s.optGate b with
      | none => s
      | some false => (s.dropShare b).optAdmit l n
      | some true => (s.modShare b { b with admitted := true, resv := b.left }).optAdmit l n

/-- Move the admitted shares of a quay on: the oldest runs until a write of it is under way (R190). `n` bounds the lines looked at. -/
def State.optGo (s : State) (l : Nat) : Nat → State
  | 0 => s
  | n + 1 =>
    match s.opt.shares.find? (fun b => b.pos == l) with
    | none => s
    | some b =>
      if 0 < b.wait then s
      else if b.admitted && (s.stepRec b.step).isNone then (s.dropShare b).optGo l n
      else if b.admitted then
        let s1 := s.optStep b
        if s1.opt.shares == s.opt.shares then s1 else s1.optGo l n
      else s

/-- A write of the optimizer has ended. -/
def State.optFin (s : State) (l tag step : Nat) : State :=
  match s.opt.shares.find? (fun b => b.pos == l && b.tag == tag && b.step == step && decide (0 < b.wait)) with
  | none => s
  | some b => s.modShare b { b with wait := b.wait - 1, held := if b.wait == 1 then [] else b.held, resv := if b.wait == 1 then b.left else b.resv }

end Sys2Proof.Machine
end

