-- ==== Sys2Proof/Machine/Groups.lean ====
section
/-! DEFINITION. Groups (R216 to R219): the directory and the member pool on logical quay 0, the group-define manifest, and
the accumulator arithmetic of a reduce-into (R234, R235). -/

namespace Sys2Proof.Machine

/-! ## Directory and pool -/

/-- A line of a group table as the defines and deletes taken so far make it: writes not yet in memory come on top. -/
def State.groupLine (s : State) (a : Nat) : Line :=
  ((s.lquay 0).ops.filter (fun o => o.src == .group && lineOf o.addr == a && o.stage != .writing)).foldl (fun x o => match o.kind with
    | .write m d _ => mergeLine m d x
    | _ => x) (s.getLine 0 a)

/-- `n` bytes of a group table. -/
def State.groupB (s : State) (addr n : Nat) : Nat :=
  ofBytes ((linesOf addr n).flatMap (fun a =>
    let lo := max addr a
    let hi := min (addr + n) (a + 128)
    bytesOf (hi - lo) (byt (s.groupLine a).toNat (hi - 1 - a) (lo - a))))

/-- A directory entry (R219). -/
structure GEnt where
  state  : Nat
  weight : Nat
  fanout : Nat
  nmemb  : Nat
  me     : Nat
  off    : Nat
  crc    : Nat
  passed : List Nat := []
  deriving DecidableEq, Repr

def State.groupAddr (s : State) (gid : Nat) : Nat := s.hpar .grpBase + 32 * gid

/-- The directory entry of a group as it lies in memory. -/
def State.groupEntry (s : State) (gid : Nat) : GEnt :=
  let v := s.groupB (s.groupAddr gid) 32
  { state := byt v 0 0, weight := byt v 1 1, fanout := byt v 2 2, nmemb := fld v 49 32, me := fld v 72 56, off := byt v 19 16,
    crc := byt v 23 20 }

/-- The directory entry of a group. A standby to which a verdict has passed a rank of a group defined without it is a member under that
rank's index, by the list it was given then, until salvage brings its predecessor's entry (R120, R216, R218, log 90). -/
def State.group (s : State) (gid : Nat) : GEnt :=
  let g := s.groupEntry gid
  let rs := s.job.groupDefs.get [] gid
  if g.state != 2 then g else
  (rs.findIdx? (fun r => (s.job.roster.getD r (0xFFFFF, 0)).1 == s.ident.device)).elim g (fun i => { g with state := 1, me := i, passed := rs })

/-- The directory entry's 32 bytes. -/
def GEnt.bytes (g : GEnt) : Nat :=
  pack [(8, g.state), (8, g.weight), (8, g.fanout), (8, 0), (24, g.nmemb), (24, g.me), (48, 0), (32, g.off), (32, g.crc), (64, 0)]

/-- The ranks of a group's members; the pool holds them only where this device is a member (R217, R218). -/
def State.groupRanks (s : State) (g : GEnt) : List Nat :=
  if g.state != 1 then [] else if !g.passed.isEmpty then g.passed else (elems 32 g.nmemb (s.groupB (s.hpar .grpPoolBase + g.off) (4 * g.nmemb))).map (fun v => fld v 16 0)

/-- The device at a rank of the roster, 0xF_FFFF where the place is vacant or absent (R216). -/
def State.rankDev (s : State) (r : Nat) : Nat := (s.job.roster.getD r (0xFFFFF, 0)).1

/-- The first offset of the pool with room for `n` bytes beside the lists of the other groups: the lowest one (log 21). -/
def State.poolRoom (s : State) (gid n : Nat) : Option Nat :=
  let used := (List.range 4096).filterMap (fun i =>
    let g := s.groupEntry i
    if i != gid && g.state == 1 then some (g.off, 4 * g.nmemb) else none)
  let cands := sortBy (fun a b => decide (a ≤ b)) (0 :: used.map (fun u => u.1 + u.2))
  cands.find? (fun o => decide (o + n ≤ s.hpar .grpPoolSize) && used.all (fun u => decide (o + n ≤ u.1 ∨ u.1 + u.2 ≤ o)))

/-- Write bytes of a group table through the write path, as a protected write of the current step on a learner (R219); the
definitions of a job image are plain lines (`plain`; R219, R495). -/
def State.groupWrite (s : State) (plain : Bool) (addr n v : Nat) : State :=
  foldS (linesOf addr n) (fun a s =>
    let pt := linePart addr n v a
    if plain then s.putLine 0 a (mergeLine pt.1 pt.2 (s.getLine 0 a)) .own
    else s.opSubmit 0 .group (.write pt.1 pt.2 false) a false 0) s

/-- Whether a group has a collective launched, queued or held (R218). -/
def State.groupBusy (s : State) (gid : Nat) : Bool :=
  s.coll.run.any (fun c => c.l.gid == gid) ||
  s.man.held.any (fun h => manType h.entry.toNat == 8 && fld h.entry.toNat 267 256 == gid)

/-- The ranks of a member list (R217). -/
def listRanks (lst : List Nat) : List Nat := lst.map (fun v => fld v 16 0)

/-- Whether a group's payload or list breaks R218. -/
def State.groupBad (s : State) (weight nmemb fanout crc : Nat) (lst : List Nat) : Bool :=
  weight == 0 || decide (nmemb < 2) || decide (131072 < nmemb) || fanout == 0 || decide (8 < fanout) ||
    crc32c (lst.flatMap (bytesOf 4)) != crc || lst.any (fun v => fld v 31 17 != 0) ||
    (listRanks lst).eraseDups.length != nmemb || (listRanks lst).any (fun r => decide (s.job.roster.length ≤ r))

/-- This device's place in a member list. -/
def State.groupMe (s : State) (nmemb : Nat) (lst : List Nat) : Option Nat :=
  (List.range nmemb).find? (fun h => s.rankDev ((listRanks lst).getD h 0) == s.ident.device)

/-- A group enters the directory (R218): `own` gives this device's place in the list and where the pool has room for the list. The directory keeps no
list of a group without this device; a standby keeps it beside the directory, for the rank that a verdict may pass to it (R120, log 90). -/
def State.putGroup (s : State) (plain : Bool) (gid weight nmemb fanout crc : Nat) (lst : List Nat) (own : Option (Nat × Nat)) : State :=
  let g : GEnt := { state := 2, weight := weight, fanout := fanout, nmemb := nmemb, me := 0, off := 0, crc := crc }
  match own with
  | none =>
    let s1 := if s.job.standby then { s with job := { s.job with groupDefs := s.job.groupDefs.set gid (listRanks lst) } } else s
    s1.groupWrite plain (s.groupAddr gid) 32 g.bytes
  | some (me, off) =>
    let s1 := s.groupWrite plain (s.hpar .grpPoolBase + off) (4 * nmemb) (ofBytes (lst.flatMap (bytesOf 4)))
    s1.groupWrite plain (s.groupAddr gid) 32 ({ g with state := 1, me := me, off := off } : GEnt).bytes

/-- Define a group from its payload and list, or refuse (R218): the second place says that the pool lacks room. -/
def State.defineGroup (s : State) (plain : Bool) (gid weight nmemb fanout crc : Nat) (lst : List Nat) : Option State × Bool :=
  if s.groupBad weight nmemb fanout crc lst then (none, false)
  else
    match s.groupMe nmemb lst with
    | none => (some (s.putGroup plain gid weight nmemb fanout crc lst none), false)
    | some me => match s.poolRoom gid (4 * nmemb) with
      | none => (none, true)
      | some off => (some (s.putGroup plain gid weight nmemb fanout crc lst (some (me, off))), false)

/-- The lines of a member list of `n` ranks in plain memory of logical quay 0, none in a reserved area, all reading well (R218). -/
def State.groupLines (s : State) (addr n : Nat) : Bool :=
  (linesOf addr (4 * n)).all (fun a => s.kindOf 0 a == 0 && !s.inReserved 0 a && s.getOk 0 a)

/-- A member list as memory gives it. -/
def State.groupList (s : State) (addr n : Nat) : List Nat :=
  elems 32 n (ofBytes ((linesOf addr (4 * n)).flatMap (fun a => bytesOf 128 (s.getLine 0 a).toNat)))

/-- GROUP_DEFINE and GROUP_DELETE (R217, R218). -/
def State.manGroup (s : State) (m : Nat) : ManOut :=
  let gid := fld m 267 256
  let kind := byt m 34 34
  let nmemb := fld m 305 288
  let addr := byt m 47 40
  if 1 < kind then .bad s
  else if s.groupBusy gid then .wait s
  else if kind == 0 then .done (s.groupWrite false (s.groupAddr gid) 32 0)
  else if nmemb < 2 || 131072 < nmemb || addr % 128 != 0 || !s.groupLines addr nmemb then .bad s
  else
    match s.defineGroup false gid (byt m 35 35) nmemb (byt m 39 39) (byt m 51 48) (s.groupList addr nmemb) with
    | (some s', _) => .done s'
    | (none, true) => .reject (s.evH .groupPoolFull [])
    | (none, false) => .bad s

/-! ## Cells (R234, R235) -/

/-- Bytes of an element of IFMT or OFMT. -/
def collSize (f : Nat) : Nat := if f == 1 then 4 else 2

/-- to_cell. -/
def toCell (x : Val) (e : Int) : Cell :=
  match x with
  | .nan => { nan := true }
  | .inf neg => { pinf := !neg, ninf := neg }
  | .fin x =>
    if !x.below (e + 16) then { oor := true }
    else
      let a : Int := shiftN x.m (x.e + 47 - e)
      { acc := if x.neg then -a else a }

/-- add. -/
def Cell.add (c d : Cell) : Cell :=
  { acc := c.acc + d.acc, nan := c.nan || d.nan, pinf := c.pinf || d.pinf, ninf := c.ninf || d.ninf, oor := c.oor || d.oor,
    poison := c.poison || d.poison }

/-- Round to nearest even into a format with infinities, as IEEE 754. -/
def EFmt.rneInf (f : EFmt) (x : Fp) : Nat :=
  let r := x.rne (f.mb + 1) (1 - f.bias - f.mb)
  if r.magLe f.maxVal then f.encExact r else f.signBits x.neg + (2 ^ f.eb - 1) * 2 ^ f.mb

/-- finish: the element's bits, none for OVERFLOW. -/
def Cell.finish (c : Cell) (e : Int) (f : EFmt) : Option Nat :=
  if c.nan || (c.pinf && c.ninf) then some f.nanBits
  else if c.pinf then some (f.signBits false + (2 ^ f.eb - 1) * 2 ^ f.mb)
  else if c.ninf then some (f.signBits true + (2 ^ f.eb - 1) * 2 ^ f.mb)
  else if c.oor || decide (c.acc < -2 ^ 63) || decide (2 ^ 63 ≤ c.acc) then none
  else if c.acc = 0 then some 0
  else some (f.rneInf { neg := decide (c.acc < 0), m := c.acc.natAbs, e := e - 47 })

end Sys2Proof.Machine
end

