-- ==== Sys2Proof/Machine/Collective.lean ====
section
/-! DEFINITION. The collective engine (R214 to R242): launches, packets, accumulation, delivery, completion and abort
(R148 to R150), taints (R116, R117) and parking (R58 to R61). -/

namespace Sys2Proof.Machine

/-! ## Packets (R228) -/

/-- The collective header. -/
structure CHdr where
  kind   : Nat
  nlines : Nat
  job    : Nat
  epoch  : Nat
  cseq   : Nat
  gid    : Nat
  srcq   : Nat
  dstq   : Nat
  sidx   : Nat
  off    : Nat
  ldig   : Nat
  deriving DecidableEq, Repr

def CHdr.enc (h : CHdr) : Nat :=
  withCrc 32 (pack [(4, h.kind), (4, 0), (8, h.nlines), (16, h.job), (32, h.epoch), (32, h.cseq), (12, h.gid), (4, 0), (4, h.srcq),
    (4, h.dstq), (8, 0), (17, h.sidx), (15, 0), (32, h.off), (32, h.ldig)])

def CHdr.dec (v : Nat) : CHdr :=
  { kind := fld v 3 0, nlines := byt v 1 1, job := byt v 3 2, epoch := byt v 7 4, cseq := byt v 11 8, gid := fld v 107 96,
    srcq := fld v 115 112, dstq := fld v 119 116, sidx := fld v 144 128, off := byt v 23 20, ldig := byt v 27 24 }

/-- A carried line: data and its 8 B trailer. -/
abbrev CLine := Line × Nat

/-- A line with its trailer: CRC-32C and poison mark. -/
def cline (x : Line) (poison : Bool) : CLine := (x, pack [(32, lineCrc x), (1, b2n poison)])

def CLine.ok (c : CLine) : Bool := fld c.2 31 0 == lineCrc c.1
def CLine.poison (c : CLine) : Bool := bitOf c.2 32

/-- A packet with its lines: length and number. -/
def collPkt (h : CHdr) (ls : List CLine) : Nat × Nat :=
  (32 + 136 * ls.length, h.enc + (pack (ls.map (fun c => (1088, c.1.toNat + c.2 <<< 1024)))) <<< 256)

/-- The lines of a packet. -/
def collLines (pkt n : Nat) : List CLine :=
  (List.range n).map (fun i => let v := fld pkt (256 + 1088 * i + 1087) (256 + 1088 * i); (BitVec.ofNat 1024 v, fld v 1087 1024))

/-- The channel of a packet kind (R448). -/
def collVc (k : Nat) : Nat := if k == 1 || k == 3 || k == 4 then 3 else 4

/-! ## Launches (R220 to R223) -/

/-- The launch of a manifest; a tally runs on logical quay 0 (R223). -/
def Launch.ofMan (m : Nat) : Launch :=
  let fl := byt m 35 35
  let mark := fld fl 4 3
  let st := manStep m
  { gid := fld m 267 256, op := byt m 34 34, deliver := bitOf fl 0, shard := bitOf fl 1, skipz := bitOf fl 2, mark := mark,
    nocpl := bitOf fl 5, cseq := byt m 39 36, ltide := byt m 47 40, e := signed 16 (byt m 49 48), ifmt := fld m 403 400,
    ofmt := fld m 407 404, srcQuay := if mark == 0 then fld m 411 408 else 0, dstQuay := if mark == 0 then fld m 415 412 else 0,
    count := byt m 55 52, root := fld m 464 448, srcAddr := byt m 67 60, dstAddr := byt m 75 68, cplAddr := byt m 83 76, step := st,
    ldigest := crc32c (bytesOf 44 (byt m 75 32) ++ bytesOf 6 st) }

/-- The field checks of a launch, made when it is read: `none` when they hold, else whether the event is COLL_TALLY. -/
def Launch.fieldsBad (l : Launch) (nquays : Nat) : Option Bool :=
  let fmtOk := fun f => f == 1 || f == 2 || f == 3
  if l.mark != 0 then
    (if l.mark == 3 || (!l.nocpl && l.cplAddr % 32 != 0) then some false
    else if l.step != 0 && l.op == 1 && !l.shard && l.deliver && !l.skipz && l.ifmt == 1 && l.ofmt == 1 && l.count == 32 && l.e == 24 then none
    else some true)
  else if l.op == 0 || 3 < l.op then some false
  else if l.op == 1 then
    (if !fmtOk l.ifmt || !fmtOk l.ofmt || l.count % 64 != 0 || l.count < 64 || 2 ^ 20 < l.count || decide (l.e < -160) || decide (160 < l.e) ||
        nquays ≤ l.srcQuay || nquays ≤ l.dstQuay || l.srcAddr % 128 != 0 || l.dstAddr % 128 != 0 || (!l.nocpl && l.cplAddr % 32 != 0) then some false else none)
  else if l.ifmt != 0 || l.ofmt != 0 || l.e != 0 || l.count == 0 || 2 ^ 20 < l.count || nquays ≤ l.srcQuay || nquays ≤ l.dstQuay ||
      l.srcAddr % 128 != 0 || l.dstAddr % 128 != 0 || (!l.nocpl && l.cplAddr % 32 != 0) then some false
  else none

/-- Bytes of a source and of a destination range of a launch on a member (R227). -/
def Launch.srcBytes (l : Launch) (n : Nat) : Nat :=
  if l.op == 1 then l.count * collSize l.ifmt * (if l.shard then n else 1) else l.count * 128
def Launch.dstBytes (l : Launch) (n : Nat) : Nat :=
  if l.op == 1 then l.count * collSize l.ofmt * (if l.shard then n else 1)
  else if l.op == 2 then l.count * 128 else l.count * 128 * n

/-- Whether a range lies inside valid regions that are no generator weights and outside reserved areas (R222). -/
def State.rangeOk (s : State) (l a n : Nat) : Bool :=
  (linesOf a n).all (fun x => (s.regionOf l x).isSome && s.kindOf l x != 4 && !s.inReserved l x)

/-- The checks that depend on the state at the launch tide (R215, R222): the event that rejects it. -/
def State.launchBad (s : State) (l : Launch) (g : GEnt) : Option Evt :=
  if g.state != 1 && g.state != 2 then some .formatError
  else if s.ident.gen && l.op == 1 then some .collRole
  else if g.nmemb ≤ l.root then some .formatError
  else if l.mark == 0 && !(s.rangeOk l.srcQuay l.srcAddr (l.srcBytes g.nmemb) && s.rangeOk l.dstQuay l.dstAddr (l.dstBytes g.nmemb)) then some .formatError
  else if s.ident.gen && l.step != 0 then some .formatError
  else if !s.ident.gen && l.mark == 0 && l.step != 0 && l.step != s.steps.last then some .formatError
  else if !l.nocpl && (s.kindOf 0 l.cplAddr != 0 || s.inReserved 0 l.cplAddr) then some .formatError
  else none

/-! ## Running collectives -/

/-- A running, queued or parked collective by its CSEQ. -/
def State.coll? (s : State) (cseq : Nat) : Option Coll := s.coll.run.find? (fun c => c.l.cseq == cseq)

def State.modColl (s : State) (cseq : Nat) (f : Coll → Coll) : State :=
  { s with coll := { s.coll with run := mapIf (fun c => c.l.cseq == cseq) f s.coll.run } }

/-- The held launch of a CSEQ. -/
def State.heldLaunch (s : State) (cseq : Nat) : Option Held :=
  s.man.held.find? (fun h => manType h.entry.toNat == 8 && byt h.entry.toNat 39 36 == cseq)

/-- The device of a member. -/
def State.collDev (s : State) (c : Coll) (h : Nat) : Nat := s.rankDev (c.ranks.getD h 200000)

/-- The targets of a collective: every member, or the root. -/
def Coll.targets (c : Coll) : List Nat := if c.l.op == 2 then [] else if c.l.shard then List.range c.nmemb else [c.l.root]
def Coll.isTarget (c : Coll) : Bool := c.targets.contains c.me

/-- Children in the relay tree of originator `r` (R231). -/
def Coll.children (c : Coll) (r : Nat) : List Nat :=
  let n := max c.nmemb 1
  let v := (c.me + n - r % n) % n
  ((List.range c.fanout).map (fun i => c.fanout * v + 1 + i)).filterMap (fun w => if w < c.nmemb then some ((w + r) % n) else none)

/-- Lines of one result shard, of one contribution and of one block. -/
def Coll.resLines (c : Coll) : Nat := if c.l.op == 1 then c.l.count * collSize c.l.ofmt / 128 else c.l.count
def Coll.srcLines (c : Coll) : Nat := if c.l.op == 1 then c.l.count * collSize c.l.ifmt / 128 else c.l.count

/-- Where the lines of originator or shard `h` are written (R214, R227). -/
def Coll.dstBase (c : Coll) (h : Nat) : Nat :=
  c.l.dstAddr + (if c.l.op == 2 || (c.l.op == 1 && !c.l.shard) then 0 else h * c.resLines * 128)

/-- Where the contribution to shard `h`, or the block, is read. -/
def Coll.srcBase (c : Coll) (h : Nat) : Nat := c.l.srcAddr + (if c.l.op == 1 && c.l.shard then h * c.srcLines * 128 else 0)

/-- The header of a packet of this collective. -/
def State.collHdr (s : State) (c : Coll) (kind n sq dq sidx off : Nat) : CHdr :=
  { kind := kind, nlines := n, job := s.job.tag, epoch := s.job.epoch, cseq := c.l.cseq, gid := c.l.gid, srcq := sq, dstq := dq,
    sidx := sidx, off := off, ldig := c.l.ldigest }

/-- Send a packet without lines of its own, or with lines. -/
def State.collSend (s : State) (c : Coll) (kind sq dq dev sidx off n : Nat) (ls : List CLine) (body : Option Nat) : State :=
  let p := collPkt (s.collHdr c kind n sq dq sidx off) ls
  match body with
  | some b => s.sendPkt sq (collVc kind) dev dq 48 (p.2 + b <<< 256)
  | none => s.sendPkt sq (collVc kind) dev dq p.1 p.2

/-- Cut lines, each with its offset, into packets of runs of at most 32. -/
def chunks : List (Nat × CLine) → List (Nat × List CLine) → List (Nat × List CLine)
  | [], acc => acc.reverse
  | (o, x) :: t, (b, ls) :: acc =>
    if o == b + ls.length && decide (ls.length < 32) && o % 32 != 0 then chunks t ((b, ls ++ [x]) :: acc) else chunks t ((o, [x]) :: (b, ls) :: acc)
  | (o, x) :: t, [] => chunks t [(o, [x])]

/-- Send lines of originator `sidx` to a device. -/
def State.collSendLines (s : State) (c : Coll) (kind sq dq dev sidx : Nat) (ls : List (Nat × CLine)) : State :=
  foldS (chunks ls []) (fun p s => s.collSend c kind sq dq dev sidx p.1 p.2.length p.2 none) s

/-! ## Berths (R242) -/

/-- Berths a member needs: pool, owner and number, on its destination quay: accumulators, and four staging berths for each quay it
receives from (R242). DESIGN CHOICE (log 52): of the 256 it may hold in all, four are left to what it sends and relays, which would else wait for
the intake for good; the intake for senders beyond the rest waits under credits (`State.collServe`, R309). -/
def Coll.needs (c : Coll) : List (Nat × Owner × Nat) :=
  let acc := if c.l.op == 1 && c.isTarget then
      (if c.l.count * 16 ≤ 65536 then [(4, Owner.accum, 1)] else [(5, Owner.accum, cdiv (c.l.count * 16) 262144)]) else []
  let nacc := acc.foldl (fun a x => a + x.2.2) 0
  let recv := c.isTarget || c.l.deliver || (c.l.op == 2 && c.me != c.l.root)
  let quays := if c.l.op == 2 || (c.l.op == 1 && !c.isTarget) then 1 else c.nmemb - 1
  acc ++ (if recv then [(2, Owner.staging, min (4 * quays) (252 - nacc))] else [])

def State.collBerths (s : State) (c : Coll) (o : Owner) : Nat :=
  ((s.lquay c.l.dstQuay).pools.live.filter (fun b => b.owner == o && b.work == c.l.cseq)).length +
  ((s.lquay c.l.dstQuay).pools.queue.filter (fun b => b.owner == o && b.work == c.l.cseq)).length

/-- Ask for the berths still wanted; lower classes that hold SRAM berths of a full tier park first (R56, R58). -/
def State.collClaim (s : State) (c : Coll) : State :=
  foldS c.needs (fun n s => foldS (List.range (n.2.2 - s.collBerths c n.2.1)) (fun _ s =>
    ((s.parkBelow c.l.dstQuay n.1 2).berthAlloc c.l.dstQuay n.1 n.2.1 c.l.cseq .wait).1) s) s

def State.collHas (s : State) (c : Coll) : Bool :=
  c.needs.all (fun n => decide (n.2.2 ≤ ((s.lquay c.l.dstQuay).pools.live.filter (fun b => b.owner == n.2.1 && b.work == c.l.cseq)).length))

/-- Whether a collective that runs has a request for berths waiting in a pool. -/
def State.collQueued (s : State) (c : Coll) : Bool :=
  (s.lquay c.l.srcQuay).pools.queue.any (fun r => r.owner == .chunk && r.work == c.l.cseq) ||
  (s.lquay c.l.dstQuay).pools.queue.any (fun r => (r.owner == .accum || r.owner == .staging || r.owner == .relay) && r.owner.piece r.work == c.l.cseq)

/-- Whether a collective that runs waits for berths: a request of its own is queued, or what it would send or relay next may not ask yet, behind
an earlier collective or at its own limit (R225, R240, R309). -/
def State.collWaits (s : State) (c : Coll) : Bool :=
  s.collQueued c || (c.wantOut && !c.contributed) || (c.wantIn && s.coll.early.any (fun i => byt i.frame.pkt 11 8 == c.l.cseq))

/-- Whether a collective launched before `c` waits for berths, so that `c` may claim none (R225). -/
def State.collBehind (s : State) (c : Coll) : Bool :=
  (s.coll.run.takeWhile (fun x => x.l.cseq != c.l.cseq)).any (fun x => x.parked.isNone && (x.phase == .berths || s.collWaits x))

/-- Whether a collective holds the 256 berths it may on the quays of its source and destination together (R309). -/
def State.collFull (s : State) (c : Coll) (n : Nat) : Bool :=
  let on := fun (l : Nat) => (s.lquay l).pools.holds .accum c.l.cseq
  decide (256 < on c.l.dstQuay + (if c.l.srcQuay == c.l.dstQuay then 0 else on c.l.srcQuay) + n)

def State.collFree (s : State) (c : Coll) : State :=
  ((foldS [Owner.accum, .staging, .spill, .spool] (fun o s => s.berthFreeWork c.l.dstQuay o c.l.cseq) s).berthFree c.l.dstQuay
    (fun b => b.owner == .relay && b.owner.piece b.work == c.l.cseq) (fun r => r.owner == .relay && r.owner.piece r.work == c.l.cseq)).berthFreeWork
    c.l.srcQuay .chunk c.l.cseq

/-! ## Completion and abort (R232, R233, R148 to R150) -/

/-- The completion record (R233). -/
def State.cplRecord (s : State) (c : Coll) (status cause sub det : Nat) (enext : Option Int) : Nat :=
  withCrc 32 (pack [(32, c.l.cseq), (16, c.l.gid), (8, status), (8, cause), (8, sub), (1, b2n enext.isSome), (1, b2n c.taint), (1, b2n c.nf),
    (1, b2n c.poison), (4, 0), (16, unsigned 16 (enext.getD 0)), (20, det), (4, 0), (8, 0), (64, s.tide.now), (32, c.written)])

/-- Whether an element of a result line is non-finite. -/
def nonFinite (fmt : Nat) (x : Line) : Bool :=
  match efmt fmt with
  | none => false
  | some f => (elems f.w (1024 / f.w) x.toNat).any (fun v => match f.decode v with
    | .fin _ => false
    | _ => true)

/-- A destination line written: LINES, and the flags NF and POISON (R233). -/
def Coll.wrote (c : Coll) (x : Line) (poison : Bool) : Coll :=
  { c with written := c.written + 1, nf := c.nf || (c.l.op == 1 && nonFinite c.l.ofmt x), poison := c.poison || poison }

/-- Stop a collective's writes: those past their log append end, and count as written, the others leave the quay with nothing written
(R150, R233, R241). -/
def State.collStop (s : State) (c : Coll) : State × Coll :=
  let mine := fun (o : Op) => match o.src with
    | .coll k _ _ => k == c.l.cseq
    | _ => false
  let on := fun (o : Op) => o.stage == .logging || o.stage.issued
  (s.modLquay c.l.dstQuay (fun q => { q with ops := q.ops.filter (fun o => !mine o || on o) }),
   ((s.lquay c.l.dstQuay).ops.filter (fun o => mine o && on o)).foldl (fun c o => let r := o.result 0 false; c.wrote r.1 r.2) c)

/-- A collective leaves: slot and berths are freed, its writes stop, the record is written, its CSEQ is finished (R150, R226, R232). DESIGN CHOICE,
unsafe (log 133): one that is aborted here while it is held or runs counts as finished for the marks of R226 too. -/
def State.collLeave (s : State) (c0 : Coll) (status cause sub det : Nat) (enext : Option Int) : State :=
  let st := s.collStop c0
  let c := st.2
  let s1 := st.1.collFree c
  let early := s1.coll.early.filter (fun i => byt i.frame.pkt 11 8 == c.l.cseq)
  let s2 := { s1 with coll := { s1.coll with run := s1.coll.run.filter (fun x => x.l.cseq != c.l.cseq), ended := c.l.cseq :: s1.coll.ended,
                                             highL := max s1.coll.highL c.l.ltide, highC := max s1.coll.highC c.l.cseq,
                                             early := s1.coll.early.filter (fun i => byt i.frame.pkt 11 8 != c.l.cseq) } }
  let s3 := foldS early (fun i s => (s.countL i.pos 0x0D 1).rxGive i.pos i.frame) s2
  let s4 := s3.countL c.l.dstQuay 0x0D c.spool.length
  if c.l.nocpl || s.kindOf 0 c.l.cplAddr != 0 || s.inReserved 0 c.l.cplAddr then s4 else s4.ownWrite 0 c.l.cplAddr 32 (s4.cplRecord c status cause sub det enext)

/-- A collective without a local run: a launch that is refused or a group one is no member of. -/
def Launch.bare (l : Launch) (g : GEnt) (ranks : List Nat) (now : Nat) : Coll :=
  { l := l, phase := .queued, nmemb := g.nmemb, me := g.me, fanout := g.fanout, weight := g.weight, ranks := ranks, lastPkt := now }

/-- The devices of a group other than this one, where it is a member. -/
def State.groupDevs (s : State) (gid : Nat) : List Nat :=
  ((s.groupRanks (s.group gid)).map s.rankDev).filter (fun d => d != s.ident.device && d != 0xFFFFF)

/-- Send the abort packets of a detection, and remember the two repeats (R149). -/
def State.abortSend (s : State) (cseq cause gid step : Nat) (devs : List Nat) : State :=
  let p := s.fencePkt 3 cause s.ident.device 0 0 step gid cseq 0 s.tide.now
  let s1 := foldS devs (fun d s => s.sendFence 0 d p) (s.ringCast 0 1 (.collAbort cseq))
  { s1 with coll := { s1.coll with resend := s1.coll.resend ++ [{ cseq := cseq, devs := devs, cause := cause, gid := gid, step := step, d := s.clock, tide := s.tide.now, sent := 1 }] } }

/-- COLL_ABORTED with cause, group and sequence (R150). -/
def State.abortEvent (s : State) (cause gid cseq : Nat) : State := s.evH .collAborted [(8, cause), (12, gid), (32, cseq)]

/-- Abort a collective on this harbour (R150), `det` the detecting device. -/
def State.abortHere (s : State) (cseq cause sub det : Nat) (enext : Option Int) : State :=
  match s.coll? cseq with
  | some c => (s.collLeave c 2 cause sub det enext).abortEvent cause c.l.gid cseq
  | none =>
    match s.heldLaunch cseq with
    | some h =>
      let l := Launch.ofMan h.entry.toNat
      let s1 := { s with man := { s.man with held := s.man.held.filter (· ≠ h) } }
      (s1.collLeave (l.bare (s.group l.gid) [] s.clock) 2 cause sub det enext).abortEvent cause l.gid cseq
    | none => s

/-- The other members of a collective; those of its group as it stands while it has no slot. -/
def State.collDevs (s : State) (c : Coll) : List Nat :=
  if c.ranks.isEmpty then s.groupDevs c.l.gid else (c.ranks.map s.rankDev).filter (fun d => d != s.ident.device && d != 0xFFFFF)

/-- Detect an abort cause for a collective (R148): it aborts here and on every member. -/
def State.abortColl (s : State) (cseq cause : Nat) (sub : Nat := 0) (enext : Option Int := none) : State :=
  match s.coll? cseq with
  | some c =>
    (s.abortHere cseq cause sub s.ident.device enext).abortSend cseq cause c.l.gid c.l.step (s.collDevs c)
  | none =>
    match s.heldLaunch cseq with
    | some h =>
      let l := Launch.ofMan h.entry.toNat
      (s.abortHere cseq cause sub s.ident.device enext).abortSend cseq cause l.gid l.step (s.groupDevs l.gid)
    | none => s

/-- Abort every collective a test picks (R38, R164, R173, R143). -/
def State.abortWhere (s : State) (p : Coll → Bool) (cause : Nat) : State :=
  foldS (s.coll.run.filter p) (fun c s => s.abortColl c.l.cseq cause) s

/-- An abort packet from another member. -/
def State.abortIn (s : State) (f : Nat) : State :=
  let cseq := byt f 31 28
  if (s.coll? cseq).isSome || (s.heldLaunch cseq).isSome then s.abortHere cseq (byt f 1 1) 0 (fld f 115 96) none
  else s.countH 0x0D

/-- COLLECTIVE_ABORT_RESEND (R149). -/
def State.abortResend (s : State) (cseq : Nat) : State :=
  match s.coll.resend.find? (fun r => r.cseq == cseq) with
  | none => s
  | some r =>
    if !s.passed r.d (500000 * r.sent) then s else
    let p := s.fencePkt 3 r.cause s.ident.device 0 0 r.step r.gid r.cseq 0 r.tide
    let s1 := foldS r.devs (fun d s => s.sendFence 0 d p) s
    let keep := if r.sent + 1 < 3 then [{ r with sent := r.sent + 1 }] else []
    { s1 with coll := { s1.coll with resend := removeFirst (· == r) s1.coll.resend ++ keep } }

/-! ## Taints (R116, R117) -/

/-- Hold a taint for its step, one not yet started here included; one that comes too late raises TAINT_LATE; one for an aborting or
aborted step is dropped (R116, R117). -/
def State.holdTaint (s : State) (no : Nat) (t : Taint) (own : Bool) : State :=
  match s.stepRec no with
  | some r =>
    if r.state == .aborting then s.countH 0x0D
    else if r.taints.contains t then s
    else
      let s1 := s.modStep no (fun r => { r with taints := r.taints ++ [t] })
      if r.moorSent then s1.evH .taintLate [] else if own then s1 else s1.evH .taintReceived []
  | none =>
    if s.isMoored no then s.evH .taintLate []
    else if s.wasAborted no then s.countH 0x0D
    else if (s.steps.early.get [] no).contains t then s
    else
      let s1 := { s with steps := { s.steps with early := s.steps.early.set no (s.steps.early.get [] no ++ [t]) } }
      if own then s1 else s1.evH .taintReceived []

/-- Raise a taint for a line of a collective of step `no`: DELIVERY_CHECK, and the taint to every member (R116, R231). -/
def State.raiseTaint (s : State) (c : Coll) (line : Nat) : State :=
  let t : Taint := { dev := s.ident.device, cseq := c.l.cseq, line := line }
  let s1 := (s.evL c.l.dstQuay .deliveryCheck []).modColl c.l.cseq (fun c => { c with taint := true })
  let p := s.fencePkt 2 0 s.ident.device 0 0 c.l.step c.l.gid c.l.cseq line s.tide.now
  (foldS ((c.ranks.map s.rankDev).filter (fun d => d != s.ident.device && d != 0xFFFFF)) (fun d s => s.sendFence 0 d p) (s1.ringCast c.l.dstQuay 1 (.taint c.l.step))).holdTaint c.l.step t true

/-- A taint packet (R116). -/
def State.taintIn (s : State) (f : Nat) : State :=
  let t : Taint := { dev := fld f 115 96, cseq := byt f 31 28, line := byt f 35 32 }
  (s.modColl t.cseq (fun c => { c with taint := true })).holdTaint (byt f 25 20) t false

/-- A delivered line that fails its check or carries poison (R231). -/
def State.badDelivery (s : State) (cseq line : Nat) : State :=
  match s.coll? cseq with
  | none => s
  | some c =>
    if !s.ident.gen && c.l.step != 0 then s.raiseTaint c line
    else (s.evL c.l.dstQuay .deliveryCheck []).abortColl cseq 8 5

/-! ## Writing lines here -/

/-- A result of a tally reaches the step machinery (R112, R223); a moored step is remembered for its refresh. -/
def State.tallyResult (s : State) (l : Launch) (x : Line) : State :=
  if l.mark == 1 then s.clearanceResult l.step x
  else
    let r := s.mooringResult l.step x
    match r.2 with
    | none => r.1
    | some no => { r.1 with steps := { r.1.steps with tallies := r.1.steps.tallies ++ [(2, no)], mooredAt := ((no, l.ltide) :: r.1.steps.mooredAt).take 8 } }

/-- Write line `off` of shard, block or originator `h`; a tally's line goes to the step machinery instead. A poisoned line that its destination
rejects is marked in the record (R233, R333). -/
def State.collWrite (s : State) (cseq h off : Nat) (own poison : Bool) (x : Line) : State :=
  match s.coll? cseq with
  | none => s
  | some c =>
    if c.l.mark != 0 then (s.modColl cseq (fun c => { c with res := some (x, poison) })).tallyResult c.l x
    else
      let a := c.dstBase h + 128 * off
      let shut := s.deltaPath c.l.dstQuay a || s.inReserved c.l.dstQuay a || s.kindOf c.l.dstQuay a == 4
      let s1 := s.modColl cseq (fun c => { c with pendingWr := c.pendingWr + 1, ownWr := if own then c.ownWr + 1 else c.ownWr, poison := c.poison || (poison && shut) })
      s1.writeReq c.l.dstQuay (.coll cseq (h * 2 ^ 32 + off) own) (.write fullMask x poison) (c.dstBase h + 128 * off) false 0

/-- Forward lines of originator `r` to the children in its tree, unchanged (R231). -/
def State.collForward (s : State) (c : Coll) (r : Nat) (ls : List (Nat × CLine)) : State :=
  let kind := if c.l.op == 1 then 3 else 4
  let sq := if c.l.op == 2 && c.me == r then c.l.srcQuay else c.l.dstQuay
  foldS (c.children r) (fun h s => s.collSendLines c kind sq c.l.dstQuay (s.collDev c h) r ls) s

/-! ## Accumulation and the shard (R229, R230, R234 to R236) -/

/-- Add a contribution line to the cells; a residue error of the accumulator poisons the result line (R229, R345). -/
def Coll.accumulate (c : Coll) (off : Nat) (x : CLine) (residue : Bool := false) : Coll :=
  match efmt c.l.ifmt with
  | none => c
  | some f =>
    let n := 1024 / f.w
    let vs := if x.poison then List.replicate n (Val.fin fpZero) else (elems f.w n x.1.toNat).map f.decode
    let cells := (List.range n).foldl (fun t i =>
      let k := off * n + i
      t.set k ((t.get {} k).add { toCell (vs.getD i (.fin fpZero)) c.l.e with poison := (x.poison || residue) && i == 0 })) c.cells
    { c with cells := cells }

/-- Count accepted lines of an originator. -/
def Coll.took (c : Coll) (sidx off : Nat) (ls : List CLine) : Coll :=
  let o := c.orig.get {} sidx
  let sum := (ls.zipIdx).foldl (fun a e => (a + fld e.1.2 31 0 + off + e.2) % 2 ^ 32) o.lsum
  { c with orig := c.orig.set sidx { o with lines := o.lines + ls.length, lsum := sum } }

/-- Whether an originator's counts agree with its END: none while lines are still to come, which the idle limit bounds (R230, R240). -/
def Coll.origAgrees (c : Coll) (h : Nat) : Option Bool :=
  let o := c.orig.get {} h
  match o.end_ with
  | none => none
  | some (n, sum) =>
    if n < o.lines then some false
    else if n == o.lines then some (sum == o.lsum)
    else none

/-- The result lines of a shard, with their poison marks; none on OVERFLOW (R235, R236). -/
def Coll.finishShard (c : Coll) : Option (List (Line × Bool)) :=
  match efmt c.l.ofmt, efmt c.l.ifmt with
  | some f, some fi =>
    let n := 1024 / f.w
    let ni := 1024 / fi.w
    (List.range c.resLines).mapM (fun r => do
      let es ← (List.range n).mapM (fun i => (c.cells.get {} (r * n + i)).finish c.l.e f)
      let bad := (List.range n).any (fun i => (c.cells.get {} ((r * n + i) / ni * ni)).poison)
      pure (BitVec.ofNat 1024 (unelems f.w es), bad))
  | _, _ => none

/-- END packets have changed the counts: abort on a mismatch; with every member in, finish the shard or the blocks. -/
def State.shardCheck (s : State) (cseq : Nat) : State :=
  match s.coll? cseq with
  | none => s
  | some c =>
    if !c.isTarget || c.finished then s else
    let as := (List.range c.nmemb).map c.origAgrees
    if as.contains (some false) then s.abortColl cseq 8 4
    else if !as.all (· == some true) then s
    else if c.l.op == 3 then s.modColl cseq (fun c => { c with finished := true })
    else match c.finishShard with
      | none => s.abortColl cseq 8 1 (if c.l.e + 16 ≤ 160 then some (c.l.e + 16) else none)
      | some res =>
        let s1 := s.modColl cseq (fun c => { c with finished := true, gotRes := c.gotRes.set c.me res.length })
        let s2 := if c.l.deliver then s1.collForward c c.me (res.zipIdx.map (fun e => (e.2, cline e.1.1 e.1.2))) else s1
        foldS res.zipIdx (fun e s => s.collWrite cseq c.me e.2 true e.1.2 e.1.1) s2

/-! ## Sending contributions (R227, R238) -/

/-- Whether a protected line has a write classified that has not issued its new line: a read of it now returns that line (R30). -/
def State.lineAwaits (s : State) (l a : Nat) : Bool :=
  (s.lquay l).ops.any (fun x => lineOf x.addr == lineOf a && !x.stage.issued && !x.kind.isRead && x.ord.isSome)

/-- A source line as the engine reads it: none while it is being rebuilt, or a write classified before is under way (R30). -/
def State.srcLine (s : State) (l a : Nat) : Option CLine :=
  if s.deltaPath l a then
    if s.lineAwaits l a then none else
    match s.optInput l a with
    | .wait => none
    | .lost => some (cline (s.readLine l a) true)
    | .ok => some (cline (s.readLine l a) false)
  else some (cline (s.getLine l a) (!s.getOk l a))

/-- The source lines of a range of `n` from line `lo`, or the addresses still being rebuilt. -/
def State.srcRange (s : State) (l base lo n : Nat) : List Nat × List (Nat × CLine) :=
  let xs := (List.range n).map (fun i => (lo + i, s.srcLine l (base + 128 * (lo + i))))
  (xs.filterMap (fun x => if x.2.isNone then some (base + 128 * x.1) else none), xs.filterMap (fun x => x.2.map (fun y => (x.1, y))))

/-- Wait for source lines: those that no write is bringing are rebuilt (R30, R156). -/
def State.awaitLines (s : State) (l : Nat) (as : List Nat) : State := foldS as (fun a s => if s.lineAwaits l a then s else s.demandSalvage l a) s

/-- The shadow lines of source lines enter the combiner as they are compared (R328, R330). -/
def State.srcTouch (s : State) (l : Nat) (as : List Nat) : State := foldS as (fun a s => if s.deltaPath l a then s.shadowData l a else s) s

/-- Whether every element of a line is +0 or -0 (R238). -/
def zeroLine (fmt : Nat) (x : CLine) : Bool :=
  !x.poison && (match efmt fmt with
    | some f => (elems f.w (1024 / f.w) x.1.toNat).all (fun v => v % 2 ^ (f.w - 1) == 0)
    | none => false)

/-- The lines of a contribution that are sent: under SKIPZ without the chunks of zeros. -/
def Coll.sendable (c : Coll) (ls : List (Nat × CLine)) : List (Nat × CLine) :=
  if c.l.skipz && c.l.op == 1 then ls.filter (fun x => !(ls.filter (fun y => y.1 / 32 == x.1 / 32)).all (fun y => zeroLine c.l.ifmt y.2)) else ls

/-- An accumulator cell's 16 bytes (R234). -/
def Cell.enc (c : Cell) : Nat :=
  pack [(96, (c.acc % (2 ^ 96 : Int)).toNat), (1, b2n c.nan), (1, b2n c.pinf), (1, b2n c.ninf), (1, b2n c.oor), (1, b2n c.poison), (27, 0)]

/-- A cell from its 16 bytes. -/
def Cell.dec (v : Nat) : Cell :=
  { acc := signed 96 v, nan := bitOf v 96, pinf := bitOf v 97, ninf := bitOf v 98, oor := bitOf v 99, poison := bitOf v 100 }

/-- The lines of `n` accumulator cells from cell `lo` on, as a berth holds them. -/
def Coll.cellLines (c : Coll) (lo n : Nat) : List Line :=
  (List.range (cdiv (min n (c.l.count - lo)) 8)).map (fun i => BitVec.ofNat 1024 (pack ((List.range 8).map (fun j => (128, (c.cells.get {} (lo + 8 * i + j)).enc)))))

/-- Write the lines of the cells that `n` cells from `lo` on lie in into the accumulator berths of the memory tier (R242, R307). -/
def State.accPut (s : State) (c : Coll) (lo n : Nat) : State :=
  let accs := (s.lquay c.l.dstQuay).pools.live.filter (fun b => b.owner == .accum && b.work == c.l.cseq)
  foldS accs.zipIdx (fun e s =>
    let per := berthSize e.1.pool / 16
    let a := max lo (e.2 * per) / 8 * 8
    let z := min (lo + n) ((e.2 + 1) * per)
    if !e.1.mem || z ≤ a then s else s.berthPutIn c.l.dstQuay e.1 (c.cellLines a (z - a)) ((a - e.2 * per) / 8)) s

/-- Take lines of originator `sidx` at a target: accumulate, or write the block (R214, R229). DESIGN CHOICE, unsafe (log 132): a line of a
gather-put that fails its check or carries poison at the target is not written and is handled as a delivered line is (R231). -/
def State.takeLines (s : State) (cseq sidx off : Nat) (ls : List CLine) : State :=
  match s.coll? cseq with
  | none => s
  | some c =>
    let use := s.berthUse c.l.dstQuay (if c.l.op == 1 then .accum else .staging) cseq (.access 0 (16 * ls.length))
    let s1 := use.1.modColl cseq (fun c => c.took sidx off ls)
    if !use.2 then use.1.abortColl cseq 5
    else if c.l.op == 1 then
      let r := s1.residueErr c.l.dstQuay 6 (c.dstBase (if c.l.shard then c.me else 0))
      let n := 128 / collSize c.l.ifmt
      let s2 := (r.1.modColl cseq (fun c => ls.zipIdx.foldl (fun c e => c.accumulate (off + e.2) e.1 (r.2 && e.2 == 0)) c)).countL c.l.dstQuay 8 ls.length
      match s2.coll? cseq with
      | some c => s2.accPut c (off * n) (ls.length * n)
      | none => s2
    else foldS ls.zipIdx (fun e s =>
      if e.1.ok && !e.1.poison then s.collWrite cseq sidx (off + e.2) true false e.1.1
      else (s.modColl cseq (fun c => { c with poison := c.poison || e.1.poison })).badDelivery cseq (off + e.2)) s1

/-- Carry a packet of this member's own over the ring where its quays differ (R227, R228). -/
def State.collRing (s : State) (c : Coll) (len pkt : Nat) : State :=
  if c.l.srcQuay == c.l.dstQuay then s else s.ringTo c.l.srcQuay c.l.dstQuay 6 (.coll len pkt)

/-- The body of an END packet: LCOUNT and LSUM (R228). -/
def endBody (lines lsum : Nat) : Nat := pack [(32, lines), (32, lsum)]

/-- Hand lines of the contribution or block to one target: they are sent, or taken here when the target is this member, over the ring
where they change quays (R227). -/
def State.contribLines (s : State) (c : Coll) (h : Nat) (ls : List (Nat × CLine)) : State :=
  if h == c.me then
    foldS (chunks ls []) (fun p s =>
      let k := collPkt (s.collHdr c (if c.l.op == 1 then 1 else 4) p.2.length c.l.srcQuay c.l.dstQuay c.me p.1) p.2
      (s.collRing c k.1 k.2).takeLines c.l.cseq c.me p.1 p.2) s
  else s.collSendLines c (if c.l.op == 1 then 1 else 4) c.l.srcQuay c.l.dstQuay (s.collDev c h) c.me ls

/-- Tell a target that no line follows (R230). -/
def State.contribEnd (s : State) (c : Coll) (h : Nat) (lines lsum : Nat) : State :=
  if h == c.me then
    let k := collPkt (s.collHdr c 2 0 c.l.srcQuay c.l.dstQuay c.me 0) []
    ((s.collRing c 48 (k.2 + endBody lines lsum <<< 256)).modColl c.l.cseq (fun c =>
      { c with orig := c.orig.set c.me { c.orig.get {} c.me with end_ := some (lines, lsum) } })).shardCheck c.l.cseq
  else s.collSend c 2 c.l.srcQuay c.l.dstQuay (s.collDev c h) c.me 0 0 [] (some (endBody lines lsum))

/-- LSUM over lines, each with its offset (R228). -/
def lineSum (ls : List (Nat × CLine)) : Nat := ls.foldl (fun a e => (a + fld e.2.2 31 0 + e.1) % 2 ^ 32) 0

/-- Chunks of a collective that wait at the source quay's port for a target, or for any (R242). -/
def State.outChunks (s : State) (c : Coll) (h : Option Nat) : Nat :=
  ((s.port c.l.srcQuay).peer.txq.filter (fun e => e.1 == 3 && e.2.cseq == c.l.cseq && (match e.2 with
    | .frame f => fld f.pkt 144 128 == c.me && f.pkt % 16 != 3 && (h.isNone || h.any (fun h => s.collDev c h == f.dst))
    | _ => false))).length

/-- What is left to do at one target once every line is handed over: END, after the last line has left the port, so that it cannot pass one
(R230); a multicast store has no END, and its root has sent every line then (R232). -/
def State.contribLast (s : State) (c : Coll) (h : Nat) : State :=
  let t := c.sentTo.get {} h
  if h != c.me && s.outChunks c (some h) != 0 then s else
  let s1 := s.modColl c.l.cseq (fun c => { c with sentTo := c.sentTo.set h { t with ended := true } })
  if c.l.op == 2 then s1 else s1.contribEnd c h t.lines t.lsum

/-- Two staging berths for one more outstanding chunk, which an earlier collective's claims go before (R225, R242, R309); its lines go into
them. -/
def State.chunkClaim (s : State) (c : Coll) (ls : List (Nat × CLine)) : State × Bool :=
  let n := 2 * s.outChunks c none + 2
  let held := ((s.lquay c.l.srcQuay).pools.live.filter (fun b => b.owner == .chunk && b.work == c.l.cseq)).length
  let r := if s.collBehind c || s.collFull c (n - held) then (s, false) else (s.berthKeep c.l.srcQuay .chunk c.l.cseq n).berthWant c.l.srcQuay 2 .chunk c.l.cseq n
  let s1 := r.1.modColl c.l.cseq (fun c => { c with wantOut := !r.2 })
  (if r.2 then s1.berthPut c.l.srcQuay .chunk c.l.cseq (ls.map (fun x => x.2.1)) else s1, r.2)

/-- A berth for a group of lines relayed or re-sent from where they were written, into which they go (R225, R308, R309). -/
def State.relayClaim (s : State) (c : Coll) (sidx off : Nat) (ls : List Line) : State × Bool :=
  let w := relayWork c.l.cseq sidx off
  let q := c.l.dstQuay
  let r := if s.hasBerth q .relay w then (s, true)
    else if s.collBehind c || s.collFull c 1 then (s, false) else s.berthWant q 2 .relay w 1
  let s1 := r.1.modColl c.l.cseq (fun c => { c with wantIn := !r.2 })
  (if r.2 then s1.berthPut q .relay w ls else s1, r.2)

/-- Go on with what this member sends to one target, chunk by chunk: at most eight chunks are outstanding, each with its berths; a line
being rebuilt is waited for; END follows the last chunk (R227, R230, R238, R242). -/
def State.contribRun (s : State) (cseq h : Nat) : Nat → State
  | 0 => s
  | n + 1 =>
    match s.coll? cseq with
    | none => s
    | some c =>
      let t := c.sentTo.get {} h
      let put := fun (s : State) (t : SentSt) => s.modColl cseq (fun c => { c with sentTo := c.sentTo.set h t })
      if t.ended then s
      else if c.srcLines ≤ 32 * t.next then s.contribLast c h
      else
        let r := s.srcRange c.l.srcQuay (c.srcBase h) (32 * t.next) (min 32 (c.srcLines - 32 * t.next))
        let out := c.sendable r.2
        let t' := { t with next := t.next + 1, lines := t.lines + out.length, lsum := (t.lsum + lineSum out) % 2 ^ 32,
                           epochs := t.epochs ++ [if out.isEmpty then 2 ^ 32 else s.job.epoch] }
        let s := s.srcTouch c.l.srcQuay (r.2.map (fun x => c.srcBase h + 128 * x.1))
        if !r.1.isEmpty then s.awaitLines c.l.srcQuay r.1
        else if out.isEmpty then (put s t').contribRun cseq h n
        else if h == c.me then ((put s t').contribLines c h out).contribRun cseq h n
        else if 8 ≤ s.outChunks c (some h) then s
        else
          let b := s.chunkClaim c out
          if b.2 then ((put b.1 t').contribLines c h out).contribRun cseq h n else b.1

/-- Whom this member sends its own lines to: the targets, or at the root of a multicast store its children in the tree (R231). -/
def Coll.sendsTo (c : Coll) : List Nat := if c.l.op != 2 then c.targets else if c.me == c.l.root then c.children c.me else []

/-- Contribute, as the source lines can be read; a tally's line is given by the vote slot, and its END follows here. A collective whose group
an abort took back has nobody to send to, and ends by its timeout (R241). -/
def State.contribute (s : State) (cseq : Nat) : State :=
  match s.coll? cseq with
  | none => s
  | some c =>
    if c.phase != .running || c.parked.isSome || c.merging || c.ranks.isEmpty || s.quiet then s
    else if c.l.mark != 0 then (if c.contributed && !(c.sentTo.get {} c.l.root).ended then s.contribLast c c.l.root else s)
    else if c.contributed then s
    else
      let s1 := foldS c.sendsTo (fun h s => s.contribRun cseq h (cdiv c.srcLines 32 + 2)) s
      s1.modColl cseq (fun c => { c with contributed := c.sendsTo.all (fun h => (c.sentTo.get {} h).ended) })

/-- At a vote slot, contribute to a tally that can be contributed to (R112). -/
def State.tallyContribute (s : State) (c : Coll) : State :=
  let line := if c.l.mark == 1 then s.clearanceLine c.l.step else s.mooringLine c.l.step
  if c.contributed || c.phase != .running || c.parked.isSome || c.merging || c.ranks.isEmpty || s.quiet || s.reliefs.any (fun x => x.st != .inService) then s else
  match line with
  | none => s
  | some x =>
    let ls := [(0, cline x false)]
    let b := if c.l.root == c.me then (s, true) else s.chunkClaim c ls
    if !b.2 then b.1 else
    let s1 := b.1.modColl c.l.cseq (fun c => { c with
      contributed := true, own := some x,
      sentTo := c.sentTo.set c.l.root { next := 1, lines := 1, lsum := lineSum ls, epochs := [s.job.epoch] } })
    let s2 := if c.l.mark == 1 then s1
      else s1.modStep c.l.step (fun r => { r with moorSent := true, state := if r.state == .ready then .tallied else r.state })
    (s2.contribLines c c.l.root ls).contribute c.l.cseq

/-! ## Completion (R232) -/

/-- What completes a collective on this member. -/
def Coll.done (c : Coll) : Bool :=
  let fins := c.targets.all (fun h => h == c.me || c.finish.contains h)
  match c.l.op with
  | 1 =>
    if c.l.deliver then c.targets.all (fun h => decide (c.resLines ≤ c.gotRes.get 0 h)) && c.pendingWr == 0 && (!c.isTarget || c.finSent)
    else c.contributed && fins && (!c.isTarget || c.finSent)
  | 2 => if c.me == c.l.root then c.contributed else decide (c.resLines ≤ c.gotRes.get 0 c.l.root) && c.pendingWr == 0
  | _ => c.contributed && (if c.isTarget then c.finSent else fins)

/-- FINISH from a target whose result is written; completion. -/
def State.collDone (s : State) (cseq : Nat) : State :=
  match s.coll? cseq with
  | none => s
  | some c =>
    if c.phase != .running || c.parked.isSome || c.ranks.isEmpty then s else
    let s1 := if c.isTarget && c.finished && !c.finSent && c.ownWr == 0 then
        foldS ((List.range c.nmemb).filter (· != c.me)) (fun h s => s.collSend c 5 c.l.dstQuay c.l.srcQuay (s.collDev c h) c.me 0 0 [] none)
          (s.modColl cseq (fun c => { c with finSent := true }))
      else s
    match s1.coll? cseq with
    | none => s1
    | some c => if c.done then s1.collLeave c 1 0 0 0 none else s1

/-- A line written for a collective has ended. -/
def State.collFin (s : State) (cseq : Nat) (own : Bool) (f : Fin) : State :=
  s.modColl cseq (fun c0 =>
    let c := if f.status == 0 then c0.wrote f.data f.poison else c0
    { c with pendingWr := c.pendingWr - 1, ownWr := if own then c.ownWr - 1 else c.ownWr })

/-! ## Launching (R225) -/

/-- An ordering fault of a launch against one held, queued or running (R226). -/
def Launch.crosses (l : Launch) (t c : Nat) : Bool := (decide (l.cseq < c) && decide (t < l.ltide)) || (decide (c < l.cseq) && decide (l.ltide < t))

/-- The (LTIDE, CSEQ) of every launch held, queued or running. -/
def State.launches (s : State) : List (Nat × Nat) :=
  s.coll.run.map (fun c => (c.l.ltide, c.l.cseq)) ++
  (s.man.held.filter (fun h => manType h.entry.toNat == 8)).map (fun h => (byt h.entry.toNat 47 40, byt h.entry.toNat 39 36))

/-- A launch at its tide: its checks, then the slot queue; a harbour that is no member completes at once (R218, R222, R225). -/
def State.launch (s : State) (h : Held) : State :=
  let l := Launch.ofMan h.entry.toNat
  let g := s.group l.gid
  let s1 := { s with man := { s.man with held := s.man.held.filter (· ≠ h) } }
  if s.quiet then s1
  else match s1.launchBad l g with
    | some e =>
      let s2 := if e == .formatError then s1.evH e [(32, 0), (32, h.idx), (32, 7), (16, 8)] else s1.evH e []
      ({ s2 with man := { s2.man with host := { s2.man.host with rej := s2.man.host.rej + 1 } } } : State).countH 0x13
    | none =>
      let c := l.bare g [] s.clock
      if g.state == 2 then s1.collLeave c 1 0 0 0 none
      else { s1 with coll := { s1.coll with run := s1.coll.run ++ [c] } }

/-- Grant a slot to the first collective of the slot queue, where one of the 64 is free (R225). It runs on the group as it then stands; where
an abort has taken the group's define back it has no members to reach (R241). -/
def State.slotGrant (s : State) : State :=
  if 64 ≤ (s.coll.run.filter (fun c => c.phase != .queued)).length then s else
  match s.coll.run.find? (fun c => c.phase == .queued) with
  | none => s
  | some c =>
    let g := s.group c.l.gid
    s.modColl c.l.cseq (fun c =>
      if g.state == 1 then { c with phase := .berths, ranks := s.groupRanks g, nmemb := g.nmemb, me := g.me, fanout := g.fanout, weight := g.weight }
      else { c with phase := .berths, ranks := [] })

/-- Read back what parking spilled, through the checks of its berths: the cells of each accumulator berth that was released, whose descriptors
the berths claimed again take over (R58, R60). -/
def State.collRestore (s : State) (c : Coll) : State :=
  let l := c.l.dstQuay
  let k := c.l.cseq
  let u := s.berthUse l .spill k (.access 0 16)
  if !u.2 then u.1.abortColl k 5 else
  let mine := fun (o : Owner) => (u.1.lquay l).pools.live.filter (fun b => b.owner == o && b.work == k)
  let cells := ((c.saved.filter (fun x => x.1.owner == .accum)).zip (mine .spill)).foldl (fun t e =>
    (List.range (min (8 * e.2.crcs.length) (c.l.count - e.1.2))).foldl (fun t i =>
      let v := Cell.dec (u.1.readB l (u.1.berthAddr l e.2.pool e.2.idx + 16 * i) 16)
      if t.get {} (e.1.2 + i) == v then t else t.set (e.1.2 + i) v) t) c.cells
  let s1 := (u.1.modColl k (fun c => { c with cells := cells, saved := [] })).berthFreeWork l .spill k
  let s2 := foldS [Owner.accum, .staging] (fun o s => foldS ((mine o).zip (c.saved.filter (fun x => x.1.owner == o))) (fun e s =>
    s.modLquay l (fun q => { q with pools := { q.pools with live := mapIf (fun b => b == e.1) (fun b => { b with count := e.2.1.count }) q.pools.live } })) s) s1
  s2.accPut { c with cells := cells } 0 c.l.count

/-- Whether a clearance tally must wait for the step-start of its step (R112). -/
def State.tallyEarly (s : State) (c : Coll) : Bool := c.l.mark == 1 && (s.clearanceLine c.l.step).isNone

/-- A clearance tally that waited for its step-start runs once that has taken effect (R112). -/
def State.tallyStart (s : State) : State :=
  { s with coll := { s.coll with run := s.coll.run.map (fun c =>
    if c.phase == .step && c.parked.isNone && !s.tallyEarly c then { c with phase := .running, lastPkt := s.clock } else c) } }

/-- Give berths to the collectives in slots, the earliest first; none claims while an earlier one waits (R225). `n` bounds the grants. -/
def State.collGrant (s : State) : Nat → State
  | 0 => s
  | n + 1 =>
    match s.coll.run.find? (fun c => c.phase == .berths && c.parked.isNone) with
    | none => s
    | some c =>
      if s.collBehind c then s else
      let s1 := s.collClaim c
      if s1.collHas c then
        ((s1.modColl c.l.cseq (fun c => { c with phase := if s.tallyEarly c then .step else .running, lastPkt := s.clock })).collRestore c).collGrant n
      else s1

/-! ## Receiving (R44, R229) -/

/-- Hold a collective packet in its intake: under credits where it carries lines (R44). -/
def State.collHold (s : State) (l : Nat) (f : Frame) : State :=
  let s1 := s.rxKeep l f
  { s1 with coll := { s1.coll with early := s1.coll.early ++ [{ pos := l, since := s.clock, job := fld f.pkt 31 16, frame := f }] } }

/-- The group index of a device. -/
def State.indexOf (s : State) (c : Coll) (dev : Nat) : Option Nat := (List.range c.nmemb).find? (fun h => s.collDev c h == dev)

/-- The kind of the lines a STALE packet refuses, which it does not name: blocks but for a reduce-into; there lines of another
originator are results, and its own are the contribution only where that was sent to a target in an epoch the refusal calls old, from the
quay the refusal names, and the target has delivered no result of its own yet (R229, log 75). -/
def State.staleKind (s : State) (c : Coll) (h : CHdr) (src : Nat) : Nat :=
  if c.l.op != 1 then 4
  else if h.sidx != c.me then 3
  else match s.indexOf c src with
    | none => 1
    | some t =>
      let sent := c.targets.contains t && t != c.me && decide ((c.sentTo.get {} t).epochs.getD (h.off / 32) (2 ^ 32) < h.epoch)
      if !c.finished then 1
      else if !sent || c.gotRes.get 0 t != 0 || (c.l.srcQuay != c.l.dstQuay && h.dstq == c.l.dstQuay) then 3 else 1

/-- Re-send lines refused as stale once the epoch has come and every line can be read, from source or, results and relayed lines, from
where they were written (R221, R229), with the berths of a chunk or of a line group (R242, R308); a tally's line lies in no memory, and is sent
again as it is held (R223). -/
def State.staleGo (s : State) (cseq : Nat) : State :=
  match s.coll? cseq with
  | none => s
  | some c =>
    if c.parked.isSome || c.merging || c.phase != .running then s else
    let go := c.stale.filter (fun r => decide (r.epoch ≤ s.job.epoch))
    foldS go (fun r s =>
      let own := r.sidx == c.me && r.kind != 3
      let h := (s.indexOf c r.dev).getD 0
      let q := if own then c.l.srcQuay else c.l.dstQuay
      let x := if c.l.mark == 0 then s.srcRange q (if own then c.srcBase h else c.dstBase r.sidx) r.off r.n
        else ([], ((if own then c.own.map (fun x => (x, false)) else c.res).toList).map (fun y => (0, cline y.1 y.2)))
      if !x.1.isEmpty then s.awaitLines q x.1
      else if !own && c.pendingWr != 0 || (own && 8 ≤ s.outChunks c (some h)) then s
      else
        let b := if own then s.chunkClaim c x.2 else s.relayClaim c r.sidx r.off (x.2.map (fun y => y.2.1))
        if !b.2 then b.1 else
        let s1 := b.1.modColl cseq (fun c =>
          let t := c.sentTo.get {} h
          { c with stale := removeFirst (· == r) c.stale,
                   sentTo := if own then c.sentTo.set h { t with epochs := t.epochs.set (r.off / 32) s.job.epoch } else c.sentTo })
        s1.collSendLines c r.kind q r.dq r.dev r.sidx x.2) s

/-- Lines of a sender pass through the staging berths of their target (R242). -/
def State.stageLines (s : State) (c : Coll) (h : CHdr) (ls : List CLine) : State :=
  let q := c.l.dstQuay
  let u := (s.berthPut q .staging h.cseq (ls.map (·.1))).berthUse q .staging h.cseq (.access 0 (128 * ls.length))
  if !u.2 then u.1.abortColl h.cseq 5 else u.1.takeLines h.cseq h.sidx h.off ls

/-- Whether a target takes the lines of a sender now. Where 256 berths leave no intake for every sender at once, as many are served as have
their four berths, in order of arrival, until their END agrees; DESIGN CHOICE, safe (log 52): R309 has the others wait under credits and names no
order. -/
def State.collServe (s : State) (c : Coll) (sidx : Nat) : State × Bool :=
  let held := ((s.lquay c.l.dstQuay).pools.live.filter (fun b => b.owner == .staging && b.work == c.l.cseq)).length
  let active := c.serving.filter (fun x => c.origAgrees x != some true)
  if held == 0 || active.contains sidx || c.origAgrees sidx == some true then (s, true)
  else if active.length < held / 4 then (s.modColl c.l.cseq (fun c => { c with serving := active ++ [sidx] }), true)
  else (s, false)

/-- A packet of a running collective (R229 to R232). -/
def State.collTake (s : State) (l : Nat) (f : Frame) (h : CHdr) (c : Coll) : State :=
  let s1 := s
  let ls := collLines f.pkt h.nlines
  let k := c.l.cseq
  match h.kind with
  | 1 =>
    if !c.isTarget || c.l.op != 1 || c.nmemb ≤ h.sidx || c.srcLines < h.off + h.nlines || c.finished then s1.pktDrop l
    else if ls.any (fun x => !x.ok) then s1.abortColl k 8 3
    else (s1.stageLines c h ls).shardCheck k
  | 2 =>
    if c.nmemb ≤ h.sidx || !c.isTarget then s1.pktDrop l
    else (s1.modColl k (fun c => { c with orig := c.orig.set h.sidx { c.orig.get {} h.sidx with end_ := some (byt f.pkt 35 32, byt f.pkt 39 36) } })).shardCheck k
  | 5 =>
    match s.indexOf c f.src with
    | none => s1.pktDrop l
    | some x => s1.modColl k (fun c => { c with finish := if c.finish.contains x then c.finish else x :: c.finish })
  | 6 =>
    (s1.modColl k (fun c => { c with stale := c.stale ++ [{ dev := f.src, dq := h.srcq, kind := s.staleKind c h f.src, sidx := h.sidx, off := h.off, n := h.nlines, epoch := h.epoch }] }))
  | _ =>
    if c.nmemb ≤ h.sidx || c.resLines < h.off + h.nlines then s1.pktDrop l
    else if c.l.op == 3 then (if c.isTarget && !c.finished then (s1.stageLines c h ls).shardCheck k else s1.pktDrop l)
    else
      let u := s1.berthUse c.l.dstQuay .relay (relayWork k h.sidx h.off) (.access 0 (128 * ls.length))
      if !u.2 then u.1.abortColl k 5 else
      let s2 := u.1.collForward c h.sidx (ls.zipIdx.map (fun e => (h.off + e.2, e.1)))
      let s3 := s2.modColl k (fun c => { c with gotRes := c.gotRes.set h.sidx (c.gotRes.get 0 h.sidx + h.nlines) })
      foldS ls.zipIdx (fun e s =>
        if e.1.ok && !e.1.poison then s.collWrite k h.sidx (h.off + e.2) false false e.1.1
        else (s.modColl k (fun c => { c with poison := c.poison || e.1.poison })).badDelivery k (h.off + e.2)) s3

/-- The lines of a packet that arrives for a parked collective go into a spool berth of the memory tier (R58). -/
def State.collSpool (s : State) (c : Coll) (f : Frame) (h : CHdr) : State :=
  if h.nlines = 0 then s else s.berthSpill c.l.dstQuay 2 .spool h.cseq ((collLines f.pkt h.nlines).map (·.1))

/-- A collective packet past the job gate (R44, R226, R229); one taken from the intake again, no longer `fresh`, does not restart the idle time
(R240). -/
def State.collIn (s : State) (l : Nat) (f : Frame) (fresh : Bool := true) : State :=
  let h := CHdr.dec f.pkt
  let data := h.kind == 1 || h.kind == 3 || h.kind == 4
  if h.kind == 0 || 6 < h.kind || (data && (32 < h.nlines || f.len != 32 + 136 * h.nlines)) || (h.kind == 2 && f.len != 48) ||
      ((h.kind == 5 || h.kind == 6) && f.len != 32) then s.pktDrop l
  else if s.coll.ended.contains h.cseq then s.countL l 0x0D 1
  else match s.coll? h.cseq with
    | some c =>
      if c.l.gid != h.gid || c.l.ldigest != h.ldig then (s.evL l .orderFault [(32, h.cseq)]).abortColl h.cseq 2
      else
        let s1 := if fresh then s.modColl h.cseq (fun c => { c with lastPkt := s.clock }) else s
        if data && decide (h.epoch < s.job.epoch) then s1.collSend c 6 l h.srcq f.src h.sidx h.off h.nlines [] none
        else if (data && decide (s.job.epoch < h.epoch)) || (c.phase != .running && c.parked.isNone) then s1.collHold l f
        else if c.parked.isSome then (s1.collSpool c f h).modColl h.cseq (fun c => { c with spool := c.spool ++ [{ pos := l, since := s.clock, job := h.job, frame := f }] })
        else if data && h.kind != 1 && c.l.op != 3 then
          let b := s1.relayClaim c h.sidx h.off ((collLines f.pkt h.nlines).map (·.1))
          if b.2 then b.1.collTake l f h c else b.1.collHold l f
        else if data && c.isTarget then
          let b := s1.collServe c h.sidx
          if b.2 then b.1.collTake l f h c else b.1.collHold l f
        else s1.collTake l f h c
    | none =>
      match s.heldLaunch h.cseq with
      | some x =>
        let lc := Launch.ofMan x.entry.toNat
        if lc.gid != h.gid || lc.ldigest != h.ldig then (s.evL l .orderFault [(32, h.cseq)]).abortColl h.cseq 2
        else if s.tide.now + s.hpar .tideFwdLimit < lc.ltide then
          let s1 := s.countH 0x11
          if s1.coll.earlyLogged.contains h.cseq then s1
          else State.evH { s1 with coll := { s1.coll with earlyLogged := h.cseq :: s1.coll.earlyLogged } } .skewDrop []
        else s.collHold l f
      | none => s.collHold l f

/-- Packets held for a CSEQ before its launch was read are judged by the launch now read: those too far ahead are dropped, a difference
is an ordering fault (R44, R226). -/
def State.collJudge (s : State) (cseq : Nat) : State :=
  let mine := fun (i : Intake) => byt i.frame.pkt 11 8 == cseq
  let s1 := { s with coll := { s.coll with early := s.coll.early.filter (fun i => !mine i) } }
  foldS (s.coll.early.filter mine) (fun i s => (s.collIn i.pos i.frame false).rxGive i.pos i.frame) s1

/-- A launch whose collective is aborted as it is read: it ends here with its record, and every member is told; it has run nowhere here, so the
marks of finished launches stay (R53, R150, R226, R233). -/
def State.launchAbort (s : State) (l : Launch) (cause : Nat) : State :=
  let t := s.collLeave (l.bare (s.group l.gid) [] s.clock) 2 cause 0 s.ident.device none
  (State.abortEvent { t with coll := { t.coll with highL := s.coll.highL, highC := s.coll.highC } } cause l.gid l.cseq).abortSend
    l.cseq cause l.gid l.step (s.groupDevs l.gid)

/-- A launch is held for its launch tide, on every quay (R54), and lines that came early for it are looked at (R53, R229). -/
def State.holdLaunch (s : State) (m idx : Nat) : State :=
  let l := Launch.ofMan m
  State.collJudge (State.ringCast { s with man := { s.man with held := s.man.held ++ [{ ring := false, idx := idx, effect := l.ltide, entry := BitVec.ofNat 1024 m }] } }
    0 4 (.heldManifest idx)) l.cseq

/-- COLLECTIVE_LAUNCH, as read (R53, R220 to R226): `idx` is its index in the host ring. -/
def State.manLaunch (s : State) (m idx : Nat) : ManOut :=
  let l := Launch.ofMan m
  let known := s.launches
  if manEffect m != 0 then .bad s
  else match l.fieldsBad s.fit.nActive with
    | some true => .reject (s.evH .collTally [])
    | some false => .bad s
    | none =>
      if known.any (fun k => k.2 == l.cseq) then
        let devs := match s.coll? l.cseq, s.heldLaunch l.cseq with
          | some c, _ => s.collDevs c
          | none, some h => s.groupDevs (Launch.ofMan h.entry.toNat).gid
          | none, none => []
        .reject (((s.evH .orderFault [(32, l.cseq)]).abortColl l.cseq 2).abortSend l.cseq 2 l.gid l.step ((s.groupDevs l.gid).filter (fun d => !devs.contains d)))
      else if s.coll.ended.contains l.cseq then
        .reject (((s.evH .orderFault [(32, l.cseq)]).abortEvent 2 l.gid l.cseq).abortSend l.cseq 2 l.gid l.step (s.groupDevs l.gid))
      else if known.any (fun k => l.crosses k.1 k.2) || (!s.coll.ended.isEmpty && l.crosses s.coll.highL s.coll.highC) then
        .reject ((s.evH .orderFault [(32, l.cseq)]).launchAbort l 2)
      else if l.ltide ≤ s.tide.now then .reject (s.launchAbort l 3)
      else if 1024 ≤ s.man.held.length then .wait s
      else .done (s.holdLaunch m idx)

/-- Intake packets whose collective now runs, and whose epoch has come, go on in order of arrival. -/
def State.collRetry (s : State) : State :=
  let ready := fun (i : Intake) =>
    let h := CHdr.dec i.frame.pkt
    match s.coll? h.cseq with
    | some c => c.phase == .running && (decide (h.epoch ≤ s.job.epoch) || i.frame.vc == 4)
    | none => s.coll.ended.contains h.cseq
  let go := s.coll.early.filter ready
  let s1 := { s with coll := { s.coll with early := s.coll.early.filter (fun i => !ready i) } }
  foldS go (fun i s => (s.collIn i.pos i.frame false).rxGive i.pos i.frame) s1

/-- Free the chunk berths whose lines have left, but what a claim that waited has now been given, and the spool once it is merged (R60, R242,
R311). The time spent waiting for berths is taken out of the idle time (R240). -/
def State.berthGo (s : State) (c0 : Coll) : State :=
  match s.coll? c0.l.cseq with
  | none => s
  | some c =>
    let k := c.l.cseq
    let keep := 2 * s.outChunks c none + (if c.waits.isSome then 2 else 0)
    let extra := ((s.lquay c.l.srcQuay).pools.live.filter (fun b => b.owner == .chunk && b.work == k)).drop keep
    let s1 := s.berthFree c.l.srcQuay (fun b => extra.contains b) (fun r => c.contributed && c.stale.isEmpty && r.owner == .chunk && r.work == k)
    let merged := c.phase == .running && c.parked.isNone && !s1.coll.early.any (fun i => byt i.frame.pkt 11 8 == k)
    let s2 := if merged then (s1.modColl k (fun c => { c with merging := false })).berthFreeWork c.l.dstQuay .spool k else s1
    match s2.collWaits c, c.waits with
    | true, none => s2.modColl k (fun c => { c with waits := some s.clock })
    | false, some t => s2.modColl k (fun c => { c with waits := none, lastPkt := c.lastPkt + (s.clock - max t c.lastPkt) })
    | _, _ => s2

/-- The accumulators of a parked collective go to the memory tier with their check values as it has berths there, and each leaves its SRAM
berth (R58). -/
def State.spillGo (s : State) : State :=
  foldS (s.coll.run.filter (fun c => c.parked.isSome && !c.saved.isEmpty)) (fun c s =>
    let l := c.l.dstQuay
    let spills := (s.lquay l).pools.live.filter (fun b => b.owner == .spill && b.work == c.l.cseq)
    foldS ((c.saved.filter (fun x => x.1.owner == .accum)).zip spills) (fun e s =>
      if !e.2.crcs.isEmpty then s
      else (s.berthPutIn l e.2 (c.cellLines e.1.2 (berthSize e.1.1.pool / 16)) 0).berthFree l (fun b => b.handle == e.1.1.handle) (fun _ => false)) s) s

/-- Everything that can go on by itself: slots, intakes, contributions, re-sent lines, completion. -/
def State.collGo (s : State) : State :=
  if s.coll.run.isEmpty && s.coll.early.isEmpty then s else
  let s0 := foldS s.coll.run (fun _ s => s.slotGrant) s
  let s1 := (((s0.collGrant s0.coll.run.length).tallyStart).spillGo).collRetry
  foldS s1.coll.run (fun c s => (((s.contribute c.l.cseq).staleGo c.l.cseq).berthGo c).collDone c.l.cseq) s1

/-! ## Limits (R44, R61, R240) -/

/-- COLL_IDLE. -/
def State.collIdle (s : State) (cseq : Nat) : State :=
  match s.coll? cseq with
  | none => s
  | some c => if c.phase == .running && c.parked.isNone && !s.collWaits c && s.passed c.lastPkt (s.lpar c.l.dstQuay .collIdleT) then s.abortColl cseq 8 2 else s

/-- COLL_PARK_LIMIT. -/
def State.collParkLimit (s : State) (cseq : Nat) : State :=
  match s.coll? cseq with
  | none => s
  | some c =>
    match c.parked with
    | some t => if s.passed t (s.hpar .collParkLimit + 1) then s.abortColl cseq 4 else s
    | none => s

/-- UNLAUNCHED_CSEQ_TIMEOUT. -/
def State.unlaunched (s : State) (cseq : Nat) : State :=
  let p := fun (i : Intake) => byt i.frame.pkt 11 8 == cseq
  let held := s.coll.early.filter p
  if (s.coll? cseq).isSome || (s.heldLaunch cseq).isSome || !held.any (fun i => s.passed i.since (s.hpar .collIdleT)) then s else
  let s1 := { s with coll := { s.coll with early := s.coll.early.filter (fun i => !p i) } }
  let s2 := foldS held (fun i s => (s.countH 0x11).rxGive i.pos i.frame) s1
  if s2.coll.earlyLogged.contains cseq then s2
  else State.evH { s2 with coll := { s2.coll with earlyLogged := cseq :: s2.coll.earlyLogged } } .skewDrop []

/-! ## Parking (R57 to R61) -/

/-- Park a collective: its accumulators ask for memory-tier berths to spill to, the descriptors of its open berths are saved, and its other SRAM
berths go (R58); `mark` for a park manifest. -/
def State.collPark (s : State) (cseq : Nat) (mark : Bool) : State :=
  match s.coll? cseq with
  | none => s
  | some c =>
    let s1 := s.modColl cseq (fun c => { c with mark := c.mark || mark, parked := some (c.parked.getD s.clock) })
    if c.parked.isSome then s1 else
    let mine := fun (b : Berth) => (b.owner == .accum || b.owner == .staging || b.owner == .relay || b.owner == .chunk) && b.owner.piece b.work == cseq && !b.mem
    let accs := (s.lquay c.l.dstQuay).pools.live.filter (fun b => b.owner == .accum && b.work == cseq)
    let saved := (accs.zipIdx.filter (fun e => !e.1.mem)).map (fun e => (e.1, e.2 * (berthSize e.1.pool / 16))) ++
      ((s.lquay c.l.dstQuay).pools.live.filter (fun b => mine b && b.owner != .accum && b.owner != .chunk)).map (fun b => (b, 0)) ++
      ((s.lquay c.l.srcQuay).pools.live.filter (fun b => mine b && b.owner == .chunk)).map (fun b => (b, 0))
    let s2 := s1.modColl cseq (fun c => { c with saved := saved })
    let s3 := foldS (saved.filter (fun x => x.1.owner == .accum)) (fun x s => (s.berthAlloc c.l.dstQuay x.1.pool .spill cseq .mem).1) s2
    let drop := fun (r : BReq) => r.owner.piece r.work == cseq && (r.owner == .accum || r.owner == .staging || r.owner == .relay || r.owner == .chunk)
    ((s3.berthFree c.l.dstQuay (fun b => mine b && b.owner != .accum) drop).berthFree c.l.srcQuay (fun b => mine b && b.owner == .chunk) drop).spillGo

/-- Resume: berths are claimed again, then the spool is merged in order of arrival, and only then does the collective issue again (`merging`);
spooled lines of an old epoch are discarded (R60, R61). -/
def State.collResume (s : State) (cseq : Nat) : State :=
  match s.coll? cseq with
  | none => s
  | some c =>
    if c.parked.isNone then s else
    let keep := c.spool.filter (fun i => i.frame.vc == 4 || decide (s.job.epoch ≤ fld i.frame.pkt 63 32))
    let s1 := s.modColl cseq (fun c => { c with
      parked := none, mark := false, spool := [], merging := true, lastPkt := s.clock, phase := if c.phase == .running || c.phase == .step then .berths else c.phase })
    let s2 := foldS keep (fun i s => s.rxKeep i.pos i.frame) s1
    { s2 with coll := { s2.coll with early := keep ++ s2.coll.early } }

end Sys2Proof.Machine
end

