-- ==== Sys2Proof/Machine/Refresh.lean ====
section
/-! DEFINITION. Weight refresh (R272 to R297): the sender's run, refresh lighters, staging and completeness, resync, the layer
schedule, passes and the wavefront flip. -/

namespace Sys2Proof.Machine

/-! ## The areas of a refresh (R273) -/

/-- The address of a mirrored block (R273): `b` counts from the quay's share of the entry. -/
def State.mirrorAddr (s : State) (l r b : Nat) : Nat :=
  let before := (s.refrEnts.filter (fun x => decide (x < r))).foldl (fun a x => a + s.refrLines l x * 2 * blockBytes (s.refrEnt x).fmt) 0
  s.lpar l .refrMirrorBase + before + b * blockBytes (s.refrEnt r).fmt

/-- The first block of the generator's tensor that line `i` of a quay's share becomes (R272). -/
def State.refrBlock (s : State) (l r i : Nat) : Nat :=
  (s.refrEnt r).elem / 32 + 2 * (s.tagFirst l (s.refrEnt r).ptag + i)

/-! ## Point-in-time reads (R139) -/

/-- A protected line as of moored step `m`: without the deltas of later steps, those of aborted attempts being reverted already. -/
def State.pitLine (s : State) (l addr m : Nat) : Line :=
  let u := ((s.lquay l).unitOf addr).getD 0
  let ln := addr % 4096 / 128
  let unwritten := ((s.lquay l).ops.filter (fun o => o.stage == .logging)).map (·.off)
  let aborted := ((s.port l).log.segs.filter (fun x => x.aborted || x.state == 3)).map (·.slot)
  (s.port l).log.entries.foldl (fun x e => match e.body with
    | .line u' ln' _ d v =>
      if u' == u && ln' == ln && !v && decide (m < e.step) && !unwritten.contains e.off && !aborted.contains e.slot then x ^^^ d else x
    | _ => x) (s.readLine l addr)

/-! ## Refresh lighters (R280, R281) -/

/-- The refresh header. -/
structure RfHdr where
  rkind   : Nat
  full    : Bool
  direct  : Bool
  void    : Bool := false
  job     : Nat
  epoch   : Nat
  src     : Nat
  srcq    : Nat
  entry   : Nat
  version : Nat
  gtag    : Nat := 0
  fmt     : Nat := 0
  first   : Nat := 0
  mask    : Nat := 0
  blen    : Nat := 0
  gid     : Nat := 0
  fseq    : Nat := 0
  bcrc    : Nat := 0
  deriving DecidableEq, Repr

def RfHdr.enc (h : RfHdr) : Nat :=
  withCrc 48 (pack [(4, 3), (4, h.rkind), (1, b2n h.full), (1, b2n h.direct), (1, b2n h.void), (5, 0), (16, h.job), (32, h.epoch), (20, h.src),
    (4, h.srcq), (8, h.entry), (48, h.version), (12, h.gtag), (4, h.fmt), (32, h.first), (64, h.mask), (16, h.blen), (12, h.gid), (4, 0),
    (32, h.fseq), (32, h.bcrc)])

def RfHdr.dec (v : Nat) : RfHdr :=
  { rkind := fld v 7 4, full := bitOf v 8, direct := bitOf v 9, void := bitOf v 10, job := fld v 31 16, epoch := fld v 63 32,
    src := fld v 83 64, srcq := fld v 87 84, entry := fld v 95 88, version := fld v 143 96, gtag := fld v 155 144, fmt := fld v 159 156,
    first := fld v 191 160, mask := fld v 255 192, blen := fld v 271 256, gid := fld v 283 272, fseq := fld v 319 288, bcrc := fld v 351 320 }

/-- The devices a refresh lighter goes on to from this device in the tree of `gid` rooted at device `root` (R283, R231). -/
def State.refrChildren (s : State) (gid root : Nat) : List Nat :=
  let g := s.group gid
  if g.state != 1 then [] else
  let devs := (s.groupRanks g).map s.rankDev
  let n := max g.nmemb 1
  match devs.findIdx? (· == root) with
  | none => []
  | some r =>
    let v := (g.me + n - r) % n
    ((List.range g.fanout).map (fun i => g.fanout * v + 1 + i)).filterMap (fun w => if w < n then some (devs.getD ((w + r) % n) 0xFFFFF) else none)

/-- Send a refresh lighter from a quay: down the tree, or to one device and quay. A lighter goes to the same logical quay
that sends it (log 23). -/
def State.refrSend (s : State) (l : Nat) (h : RfHdr) (body : Nat) (dest : Option (Nat × Nat)) : State :=
  let pkt := h.enc + body <<< 384
  match dest with
  | some (d, q) => s.sendPkt l 1 d q (48 + h.blen) pkt
  | none => foldS ((s.refrChildren h.gid s.ident.device).filter (· != 0xFFFFF)) (fun d s => s.sendPkt l 1 d l (48 + h.blen) pkt) s

/-- The header of a share's lighters. -/
def State.refrHdr (s : State) (x : RefrShare) (version : Nat) : RfHdr :=
  let e := s.refrEnt x.entry
  { rkind := 1, full := x.full, direct := x.direct.isSome, job := s.job.tag, epoch := s.job.epoch, src := s.ident.device, srcq := x.pos,
    entry := x.entry, version := version, gtag := e.gtag, fmt := e.fmt, gid := e.gid }

/-- Group blocks into windows of 64 from a multiple of 64 (R277). -/
def windows : List (Nat × Nat) → List (Nat × List (Nat × Nat)) → List (Nat × List (Nat × Nat))
  | [], acc => acc.reverse
  | (b, v) :: t, (w, bs) :: acc => if b / 64 == w then windows t ((w, bs ++ [(b, v)]) :: acc) else windows t ((b / 64, [(b, v)]) :: (w, bs) :: acc)
  | (b, v) :: t, [] => windows t [(b / 64, [(b, v)])]

/-- Send a share's blocks as data lighters and its END (R277, R282). -/
def State.refrSendShare (s : State) (x : RefrShare) (version : Nat) (bs : List (Nat × Nat)) : State :=
  let h := s.refrHdr x version
  let n := blockBytes h.fmt
  let ws := windows bs []
  let qmask := ((List.range s.fit.nActive).filter (fun q => decide (0 < s.refrLines q x.entry))).foldl (fun a q => a + 2 ^ q) 0
  let s1 := foldS ws.zipIdx (fun w s =>
    let body := pack (w.1.2.map (fun b => (8 * n, b.2)))
    let len := n * w.1.2.length
    s.refrSend x.pos { h with first := 64 * w.1.1, mask := w.1.2.foldl (fun a b => a ||| 2 ^ (b.1 % 64)) 0, blen := len, fseq := w.2,
                              bcrc := if len == 0 then 0 else crcOf len body } body x.direct) s
  s1.refrSend x.pos { h with rkind := 2, mask := qmask, fseq := ws.length } 0 x.direct

/-- An END with VOID = 1: the share will not be sent (R279). -/
def State.refrVoid (s : State) (x : RefrShare) : State :=
  let qmask := ((List.range s.fit.nActive).filter (fun q => decide (0 < s.refrLines q x.entry))).foldl (fun a q => a + 2 ^ q) 0
  (s.refrSend x.pos { s.refrHdr x x.step with rkind := 2, void := true, mask := qmask } 0 none).modPort x.pos (fun p => { p with mirrorOk := p.mirrorOk.filter (· != x.entry) })

/-! ## The run (R277 to R279) -/

/-- Clear bits of a quay's memory, a line at a time. -/
def State.clearBits (s : State) (l : Nat) (bs : List Nat) : State :=
  foldS (bs.map (· / 1024)).eraseDups (fun x s =>
    s.ownWrite l (128 * x) 128 ((bs.filter (fun b => b / 1024 == x)).foldl (fun v b => setFld v (b % 1024) (b % 1024) 0) (s.readB l (128 * x) 128))) s

/-- The local lines of a share that the run takes: index in the share and address. -/
def State.refrTodo (s : State) (x : RefrShare) : List (Nat × Nat) :=
  let e := s.refrEnt x.entry
  ((List.range (s.refrLines x.pos x.entry)).filterMap (fun i => ((s.lquay x.pos).tagAddr e.ptag (128 * i)).map (fun a => (i, a)))).filter
    (fun y => x.full || s.memBit x.pos (s.dirtyBit x.pos (x.step % 2) x.entry y.1))

/-- The quantiser's residue check fails on a share: nothing of it is staged in the mirror, the run is FULL when it is repeated (R345, R375), and
after RECOVERY_LIMIT restarts the quay reports a fatal internal error (R376, R377). -/
def State.refrFault (s : State) (x : RefrShare) : State :=
  let r := s.restart ((s.phys x.pos).getD 0) 10 x.entry x.restarts
  let s1 := { r.1 with refr := { r.1.refr with running := mapIf (· == x) (fun x => { x with full := true, restarts := x.restarts + 1 }) r.1.refr.running } }
  let s2 := s1.modPort x.pos (fun p => { p with mirrorOk := p.mirrorOk.filter (· != x.entry) })
  if r.2 then s2.fatalL x.pos else s2

/-- Run a share on a quay in service: none while a line of it is being rebuilt, or a replay has still to pass a unit of it (R126). -/
def State.refrRun (s : State) (x : RefrShare) : State × Bool :=
  let e := s.refrEnt x.entry
  let todo := s.refrTodo x
  let bad := todo.filter (fun y => s.optInput x.pos y.2 == .wait)
  if (s.phys x.pos).isNone || todo.any (fun y => ((s.lquay x.pos).unitOf y.2).any (s.unitReplaying x.pos)) then (s, false)
  else if !bad.isEmpty then (foldS bad (fun y s => s.demandSalvage x.pos y.2) s, false)
  else
    let q := s.residueErr x.pos 7 (s.mirrorAddr x.pos x.entry 0)
    if q.2 then (q.1.refrFault x, false) else
    let n := blockBytes e.fmt
    let blocks := todo.flatMap (fun y =>
      let es := elems 16 64 (s.pitLine x.pos y.2 x.step).toNat
      [(2 * y.1, s.refrBlock x.pos x.entry y.1, quantise e.fmt (es.take 32)), (2 * y.1 + 1, s.refrBlock x.pos x.entry y.1 + 1, quantise e.fmt (es.drop 32))])
    let out := blocks.filter (fun b => x.full || s.readB x.pos (s.mirrorAddr x.pos x.entry b.1) n != b.2.2)
    let s1 := foldS out (fun b s => s.ownWrite x.pos (s.mirrorAddr x.pos x.entry b.1) n b.2.2) s
    let s2 := (s1.clearBits x.pos (todo.map (fun y => s.dirtyBit x.pos (x.step % 2) x.entry y.1))).modPort x.pos (fun p => { p with
                                                  refrVer := p.refrVer.set x.entry x.step,
                                                  mirrorOk := if x.full && !p.mirrorOk.contains x.entry then x.entry :: p.mirrorOk else p.mirrorOk })
    (s2.refrSendShare x x.step (out.map (·.2)), true)

/-- A step has moored: its refresh starts on every quay, on one under relief once the relief quay is in service (R122 stage 5, R277, R279). -/
def State.refrStart (s : State) (no : Nat) : State :=
  if s.ident.gen then s else
  let xs := s.standing.flatMap (fun l => (s.refrEnts.filter (fun r => decide (0 < s.refrLines l r))).map (fun r =>
    ({ pos := l, entry := r, step := no, full := !(s.port l).mirrorOk.contains r, direct := none } : RefrShare)))
  if xs.isEmpty then s else { s with refr := { s.refr with running := s.refr.running ++ xs, pins := some (min no (s.refr.pins.getD no)) } }

/-- Serve a resync request from the mirror (R284). -/
def State.refrServe (s : State) (x : RefrShare) : State :=
  let e := s.refrEnt x.entry
  let n := blockBytes e.fmt
  let bs := (List.range (2 * s.refrLines x.pos x.entry)).map (fun b => (s.refrBlock x.pos x.entry 0 + b, s.readB x.pos (s.mirrorAddr x.pos x.entry b) n))
  s.refrSendShare { x with full := true } ((s.port x.pos).refrVer.get 0 x.entry) bs

/-- The resync request a quay serves next: the one that came first, once its share's refresh has run and its mirror is valid (R284). -/
def State.resyncNext (s : State) : Option RefrShare :=
  s.refr.resync.find? (fun x => (s.refr.resync.find? (fun y => y.pos == x.pos)) == some x && !s.refr.running.any (fun y => y.pos == x.pos) &&
    (s.phys x.pos).isSome && (s.port x.pos).mirrorOk.contains x.entry && ((s.port x.pos).refrVer.find x.entry).isSome)

/-- Go on with the refresh: shares that were interrupted, shares to run, then one resync request per quay. A refresh pins the segments of later
steps than its own, and frees what it pinned once it has read (R278). -/
def State.refreshGo (s : State) : State :=
  let s1 := if s.refr.pins.isNone then foldS s.refr.running (fun x s => s.refrVoid x) { s with refr := { s.refr with running := [] } } else s
  let s2 := foldS s1.refr.running (fun x s =>
    let r := s.refrRun x
    if r.2 then { r.1 with refr := { r.1.refr with running := r.1.refr.running.filter (· ≠ x) } } else r.1) s1
  let oldest := s2.refr.running.foldl (fun (a : Option Nat) x => some (min x.step (a.getD x.step))) none
  let s3 := if s2.refr.pins.isSome && s2.refr.pins != oldest then
      let s' := { s2 with refr := { s2.refr with pins := oldest } }
      let free := fun (m : Option Nat) (x : Seg) => m.all (fun m => decide (x.step ≤ m))
      foldS s'.lquays (fun l s => foldS ((s.port l).log.segs.filter (fun x => x.state == 4 && free s.locker.pins x && free oldest x)) (fun x s => s.segFree l x.slot) s) s'
    else s2
  match s3.resyncNext with
  | none => s3
  | some x => State.refrServe { s3 with refr := { s3.refr with resync := removeFirst (· == x) s3.refr.resync } } x

/-! ## Staging (R288) -/

/-- Blocks of a region. -/
def Region.blocks (r : Region) : Nat := if isMx r.fmt then r.size * 4096 / mxFrame (max r.ew 1) * 4096 else r.size * 4096 / 32

/-- Blocks of a generator tag on a quay. -/
def State.tagBlocks (s : State) (l tag : Nat) : Nat := ((s.confQuay l).tagRegions tag).foldl (fun a r => a + r.blocks) 0

/-- The quay and local block of block `b` of a generator tag. -/
def State.blockHome (s : State) (tag : Nat) : List Nat → Nat → Option (Nat × Nat)
  | [], _ => none
  | l :: t, b => let n := s.tagBlocks l tag; if b < n then some (l, b) else s.blockHome tag t (b - n)

/-- The region and block in it of local block `b`. -/
def blockIn : List Region → Nat → Option (Region × Nat)
  | [], _ => none
  | r :: t, b => if b < r.blocks then some (r, b) else blockIn t (b - r.blocks)

/-- Where a quay's next record begins in its staging ring, and where its oldest does. -/
def State.stageEnd (s : State) (l : Nat) : Nat := ((s.refr.staged.filter (fun x => x.pos == l)).getLast?).elim 0 (fun x => x.off + x.bytes)
def State.stageTail (s : State) (l : Nat) : Nat := ((s.refr.staged.filter (fun x => x.pos == l)).head?).elim 0 (·.off)

/-- Whether `n` more bytes fit the ring of a quay: its space is used from its oldest record on. -/
def State.stageFits (s : State) (l n : Nat) : Bool := decide (s.stageEnd l - s.stageTail l + n ≤ s.lpar l .refrStageSize)

/-- The two pieces of a span of a quay's ring: address and bytes, before its end and after it. -/
def State.stageSpan (s : State) (l off n : Nat) : (Nat × Nat) × (Nat × Nat) :=
  let z := max (s.lpar l .refrStageSize) 1
  let base := s.lpar l .refrStageBase
  let a := min n (z - off % z)
  ((base + off % z, a), (base, n - a))

/-- Read and write bytes of a quay's ring. -/
def State.stageRead (s : State) (l off n : Nat) : Nat :=
  let p := s.stageSpan l off n
  s.readB l p.1.1 p.1.2 + (s.readB l p.2.1 p.2.2) <<< (8 * p.1.2)
def State.stageWrite (s : State) (l off n v : Nat) : State :=
  let p := s.stageSpan l off n
  let s1 := s.ownWrite l p.1.1 p.1.2 (v % 2 ^ (8 * p.1.2))
  if p.2.2 == 0 then s1 else s1.ownWrite l p.2.1 p.2.2 (v >>> (8 * p.1.2))

/-- The share of a version is incomplete until sent again (R290). -/
def State.refrBad (s : State) (h : RfHdr) : State :=
  { s with refr := { s.refr with bad := (h.src, h.srcq, h.entry, h.version) :: s.refr.bad.filter (· ≠ (h.src, h.srcq, h.entry, h.version)) } }

/-- The blocks of a body. -/
def refrBlocks (h : RfHdr) (body : Nat) : List (Nat × Nat) :=
  let n := blockBytes h.fmt
  (((List.range 64).filter (fun b => h.mask.testBit b)).zipIdx).map (fun e => (h.first + e.1, byt body (n * (e.2 + 1) - 1) (n * e.2)))

/-- A lighter that finds a ring full is dropped: counted, its share incomplete, to be asked for once flips have freed space. -/
def State.stageDrop (s : State) (l : Nat) (h : RfHdr) : State :=
  let s1 := (s.countL l 0x1E 1).refrBad h
  { s1 with refr := { s1.refr with dropped := (h.src, h.srcq, h.entry) :: s1.refr.dropped.filter (· ≠ (h.src, h.srcq, h.entry)) } }

/-- Put the record of a lighter, or of the part of one, into the ring of a quay. -/
def State.stagePut (s : State) (l : Nat) (h : RfHdr) (pkt : Nat) : State :=
  let n := 48 + h.blen
  if !s.stageFits l n then s.stageDrop l h else
  let off := s.stageEnd l
  let bs := ((List.range 64).filter (fun b => h.mask.testBit b)).zipIdx.map (fun e => (h.first + e.1, off + 48 + blockBytes h.fmt * e.2))
  let s1 := s.stageWrite l off n pkt
  { s1 with refr := { s1.refr with staged := s1.refr.staged ++
    [{ pos := l, src := h.src, quay := h.srcq, entry := h.entry, version := h.version, full := h.full, gtag := h.gtag, fmt := h.fmt, fseq := h.fseq,
       blocks := bs, off := off, bytes := n }] } }

/-- The part of a lighter with some of its blocks, as a lighter of its own. -/
def RfHdr.part (h : RfHdr) (bs : List (Nat × Nat)) : RfHdr × Nat :=
  let n := blockBytes h.fmt
  let body := pack (bs.map (fun b => (8 * n, b.2)))
  let h' := { h with mask := bs.foldl (fun a b => a ||| 2 ^ (b.1 - h.first)) 0, blen := n * bs.length, bcrc := if bs.isEmpty then 0 else crcOf (n * bs.length) body }
  (h', h'.enc + body <<< 384)

/-- What was on its way to a quay under relief is staged there once the relief quay is in service. -/
def State.stageLate (s : State) : State :=
  let go := s.refr.toStage.filter (fun e => (s.phys e.1).isSome)
  foldS go (fun e s => s.stagePut e.1 (RfHdr.dec e.2.2) e.2.2) { s with refr := { s.refr with toStage := s.refr.toStage.filter (fun e => (s.phys e.1).isNone) } }

/-- Stage a data lighter, its blocks on the quays that hold them, to which they go on the harbour ring (R22, R288); on a full ring it is dropped. -/
def State.stage (s : State) (l : Nat) (h : RfHdr) (body : Nat) : State :=
  let bs := refrBlocks h body
  let home := fun b => s.blockHome h.gtag (List.range s.fit.nActive) b
  let at_ := fun q => bs.filter (fun b => (home b.1).any (fun x => x.1 == q))
  let parts := ((List.range s.fit.nActive).filter (fun q => !(at_ q).isEmpty)).map (fun q => (q, at_ q))
  let parts' := if parts.isEmpty then [(l, [])] else parts
  let size := fun (n : Nat) => 48 + n * blockBytes h.fmt
  if parts'.any (fun p => (s.phys p.1).isSome && !s.stageFits p.1 (size p.2.length)) then s.stageDrop l h
  else foldS parts' (fun p s =>
    let r := h.part p.2
    let s1 := if p.1 == l then s else s.ringTo l p.1 6 (.stage (size p.2.length))
    if (s1.phys p.1).isSome then s1.stagePut p.1 r.1 r.2
    else { s1 with refr := { s1.refr with toStage := s1.refr.toStage ++ [(p.1, size p.2.length, r.2)] } }) s

/-! ## Completeness (R289) -/

/-- Whether a part of a lighter of an END's share and version is still on its way to its quay. -/
def Refr.onWay (r : Refr) (e : EndRec) : Bool :=
  r.toStage.any (fun x => let h := RfHdr.dec x.2.2; h.src == e.src && h.srcq == e.quay && h.entry == e.entry && h.version == e.version)

/-- Whether data lighters 0 to its count - 1 of an END are all staged, those of a FULL refresh and of another apart. -/
def Refr.endDone (r : Refr) (e : EndRec) : Bool :=
  !e.void && (List.range e.count).all (fun i => r.staged.any (fun x => x.src == e.src && x.quay == e.quay && x.entry == e.entry && x.version == e.version && x.full == e.full && x.fseq == i)) &&
  !r.bad.contains (e.src, e.quay, e.entry, e.version) && !r.onWay e

/-- The highest version of a complete FULL refresh of a share. -/
def Refr.fullVer (r : Refr) (src quay entry : Nat) : Nat :=
  ((r.ends.filter (fun e => e.src == src && e.quay == quay && e.entry == entry && e.full && r.endDone e)).map (·.version)).foldl max 0

/-- Whether a share is satisfied for every version after the current one up to `v`. -/
def Refr.shareOk (r : Refr) (src quay entry v : Nat) : Bool :=
  let lo := max r.cur (r.fullVer src quay entry)
  let vs := ((r.ends.filter (fun e => e.src == src && e.quay == quay && e.entry == entry && decide (lo < e.version) && decide (e.version ≤ v) && r.endDone e)).map (·.version)).eraseDups
  decide (v - lo ≤ vs.length)

/-- The quays that hold a share of a source's entry, by its ENDs; none before the first. -/
def Refr.qmask (r : Refr) (src entry : Nat) : Nat := (r.ends.filter (fun e => e.src == src && e.entry == entry)).foldl (fun a e => a ||| e.qmask) 0

/-- Whether a source is satisfied up to `v`. -/
def Refr.sourceOk (r : Refr) (src entry v : Nat) : Bool :=
  let m := r.qmask src entry
  m != 0 && ((List.range 16).filter (fun q => m.testBit q)).all (fun q => r.shareOk src q entry v)

/-- The sources of a schedule as devices and entries. -/
def State.schedSources (s : State) (sc : Sched) : List (Nat × Nat) :=
  sc.layers.flatMap (fun y => ((sc.sources.drop y.2.2.1).take y.2.2.2).map (fun x => (s.rankDev x.1, x.2)))

/-- The newest complete version after the current one (R289). -/
def State.newest (s : State) : Option Nat :=
  match s.refr.sched with
  | none => none
  | some sc =>
    let vs := ((s.refr.ends.map (·.version)).filter (fun v => decide (s.refr.cur < v))).eraseDups
    let ok := vs.filter (fun v => (s.schedSources sc).all (fun x => s.refr.sourceOk x.1 x.2 v))
    if ok.isEmpty then none else some (ok.foldl max 0)

/-! ## Resync (R284, R290) -/

/-- Send a resync request for a share, once until its answer has ended. -/
def State.refrAsk (s : State) (src quay entry : Nat) : State :=
  if s.refr.asked.contains (src, quay, entry) || src == 0xFFFFF then s else
  let r := s.refr
  let have_ := max r.cur (((r.ends.filter (fun e => e.src == src && e.quay == quay && e.entry == entry && r.shareOk src quay entry e.version)).map (·.version)).foldl max 0)
  let h : RfHdr := { rkind := 3, full := false, direct := true, job := s.job.tag, epoch := s.job.epoch, src := s.ident.device, srcq := 0,
                     entry := entry, version := have_ }
  State.sendPkt { s with refr := { s.refr with asked := (src, quay, entry) :: s.refr.asked } } 0 1 src quay 48 h.enc

/-- Ask for every share of a source: of the quays its ENDs name, or of every logical quay before the first. -/
def State.refrAskSource (s : State) (x : Nat × Nat) : State :=
  let m := s.refr.qmask x.1 x.2
  let qs := (List.range s.fit.nActive).filter (fun q => m == 0 || m.testBit q)
  foldS qs (fun q s => s.refrAsk x.1 q x.2) s

/-- Resync requests for every source of the schedule, at job start and on a standby generator (R290). -/
def State.refrAskAll (s : State) : State :=
  match s.refr.sched with
  | none => s
  | some sc => if s.ident.gen then foldS (s.schedSources sc).eraseDups (fun x s => s.refrAskSource x) s else s

/-- A lighter or END of a later version has arrived while a share is incomplete (R290). -/
def State.refrLater (s : State) (h : RfHdr) : State :=
  let gap := s.refr.bad.any (fun b => b.1 == h.src && b.2.1 == h.srcq && b.2.2.1 == h.entry && decide (s.refr.cur < b.2.2.2) &&
      !s.refr.shareOk h.src h.srcq h.entry b.2.2.2) || (decide (s.refr.cur + 1 < h.version) && !s.refr.shareOk h.src h.srcq h.entry (h.version - 1))
  if gap && !s.refr.dropped.contains (h.src, h.srcq, h.entry) then s.refrAsk h.src h.srcq h.entry else s

/-- Note when versions are first complete for some source (R290). -/
def State.refrGapNote (s : State) : State :=
  match s.refr.sched with
  | none => s
  | some sc =>
    let vs := ((s.refr.ends.map (·.version)).filter (fun v => decide (s.refr.cur < v))).eraseDups
    let t := vs.foldl (fun t v => if (t.find v).isSome || !(s.schedSources sc).any (fun x => s.refr.sourceOk x.1 x.2 v) then t else t.set v s.clock) s.refr.gapAt
    { s with refr := { s.refr with gapAt := t.filter (fun e => decide (s.refr.cur < e.1)) } }

/-- REFR_GAP_EXPIRY (R290). -/
def State.refrGap (s : State) : State :=
  match s.refr.sched with
  | none => s
  | some sc =>
    let due := s.refr.gapAt.filter (fun e => s.passed e.2 (s.hpar .refrGapT))
    foldS due (fun e s =>
      let s1 := { s with refr := { s.refr with gapAt := s.refr.gapAt.set e.1 s.clock, asked := [] } }
      foldS ((s.schedSources sc).eraseDups.filter (fun x => !s.refr.sourceOk x.1 x.2 e.1)) (fun x s => s.refrAskSource x) s1) s

/-! ## Receiving (R283) -/

/-- Whether a refresh lighter's header and length are sound for its kind. -/
def refrOk (f : Frame) (kind : Nat) : Bool :=
  let h := RfHdr.dec f.pkt
  crcOk 48 (f.pkt % 2 ^ 384) && f.pkt % 16 == 3 && h.rkind == kind && f.len == 48 + h.blen && decide (h.blen ≤ 2112) && (h.rkind == 1 || h.blen == 0) &&
  (h.rkind != 1 || h.blen == popCount 64 h.mask * blockBytes h.fmt)

/-- A refresh packet of another epoch is answered as the convoy class is, EPOCH_STALE or EPOCH_AHEAD to the device it names as its sender (R84,
R144, R283). DESIGN CHOICE (log 42): the answer gives FSEQ, or 0 for a resync request, where a lighter's gives LSEQ. -/
def State.refrEpoch (s : State) (l : Nat) (h : RfHdr) : State := s.sendAck l h.src h.job (if h.epoch < s.job.epoch then 2 else 3) h.fseq

/-- Data or END past the job gate. -/
def State.refrIn (s : State) (l : Nat) (f : Frame) : State :=
  let h := RfHdr.dec f.pkt
  let body := f.pkt >>> 384
  if h.epoch != s.job.epoch then s.refrEpoch l h
  else
    let s1 := if h.direct then s else
      foldS ((s.refrChildren h.gid h.src).filter (· != 0xFFFFF)) (fun d s => s.sendPkt l 1 d l f.len f.pkt) s
    if !s1.ident.gen then s1
    else
      let s2 := if h.direct && h.rkind == 2 then
          { s1 with refr := { s1.refr with asked := s1.refr.asked.filter (· ≠ (h.src, h.srcq, h.entry)) } } else s1
      let s3 := if h.rkind == 2 then
          let e : EndRec := { src := h.src, quay := h.srcq, entry := h.entry, version := h.version, full := h.full, void := h.void, count := h.fseq, qmask := h.mask % 65536 }
          { s2 with refr := { s2.refr with ends := s2.refr.ends.filter (· ≠ e) ++ [e] } }
        else if h.blen != 0 && crcOf h.blen body != h.bcrc then s2.refrBad h
        else
          let s' := if h.full && h.direct && h.fseq == 0 then
              { s2 with refr := { s2.refr with bad := s2.refr.bad.filter (· ≠ (h.src, h.srcq, h.entry, h.version)) } } else s2
          s'.stage l h body
      (s3.refrLater h).refrGapNote

/-- A resync request past the job gate (R284). -/
def State.refrAsked (s : State) (l : Nat) (f : Frame) : State :=
  let h := RfHdr.dec f.pkt
  if h.epoch != s.job.epoch then s.refrEpoch l h
  else if s.ident.gen || !(s.refrEnt h.entry).valid || s.refrLines l h.entry == 0 then s
  else { s with refr := { s.refr with resync := s.refr.resync ++ [{ pos := l, entry := h.entry, step := h.version, full := true, direct := some (h.src, h.srcq) }] } }

/-! ## The layer schedule (R285 to R287) -/

/-- What is held of a source whose shares are new to the schedule counts no more: they are unsatisfied (R287). -/
def State.refrForget (s : State) (x : Nat × Nat) : State :=
  { s with refr := { s.refr with ends := s.refr.ends.filter (fun e => !(e.src == x.1 && e.entry == x.2)), staged := s.refr.staged.filter (fun e => !(e.src == x.1 && e.entry == x.2)),
                                 bad := s.refr.bad.filter (fun b => !(b.1 == x.1 && b.2.2.1 == x.2)) } }

/-- The schedule a manifest names, none where its counts, its place, its check value or its content break R286. -/
def State.schedOf (s : State) (m : Nat) : Option Sched :=
  let addr := byt m 39 32
  let nl := byt m 41 40
  let ne := byt m 43 42
  let ns := byt m 47 44
  let len := 16 * nl + 2 * ne + 4 * ns
  if nl == 0 || 256 < nl || ne == 0 || 1024 < ne || ns == 0 || 65536 < ns || addr % 128 != 0 || s.kindOf 0 addr != 0 then none
  else if !(linesOf addr len).all (fun a => s.getOk 0 a) then none
  else
    let v := ofBytes ((linesOf addr len).flatMap (fun a => bytesOf 128 (s.getLine 0 a).toNat))
    let lay := (elems 128 nl v).map (fun w => (byt w 1 0, byt w 3 2, byt w 7 4, byt w 9 8))
    let ent := elems 16 ne (v >>> (128 * nl))
    let src := (elems 32 ns (v >>> (128 * nl + 16 * ne))).map (fun w => (fld w 16 0, fld w 24 17))
    let gtags := (s.allQuays.flatMap (fun l => ((s.confQuay l).regions.filter (fun r => r.kind == 4)).map (·.tag))).eraseDups
    let inL := fun (t : Nat) (y : Nat × Nat × Nat × Nat) => decide (y.1 ≤ t) && decide (t ≤ y.2.1)
    if crcOf len v != byt m 51 48 then none
    else if !(lay.all (fun y => decide (y.1 ≤ y.2.1) && (List.range (y.2.1 + 1 - y.1)).all (fun i => gtags.contains (y.1 + i)) && decide (y.2.2.1 + y.2.2.2 ≤ ns)) &&
        gtags.all (fun t => (lay.filter (inL t)).length == 1) && (List.range nl).all (fun k => ent.contains k) && ent.all (fun k => decide (k < nl))) then none
    else some { layers := lay, entries := ent, sources := src }

/-- A schedule takes effect, during a pass with the next one; each source share that is new to it is asked for a full refresh (R285, R287). -/
def State.takeSched (s : State) (sc : Sched) : State :=
  let old := match s.refr.sched with
    | none => []
    | some o => s.schedSources o
  let s1 := if s.refr.pass.isSome then { s with refr := { s.refr with nextSched := some sc } } else { s with refr := { s.refr with sched := some sc } }
  foldS ((s1.schedSources sc).eraseDups.filter (fun x => !old.contains x)) (fun x s => if s.jobOn then (s.refrForget x).refrAskSource x else s.refrForget x) s1

/-- LAYER_SCHEDULE (R285 to R287). -/
def State.manSchedule (s : State) (m : Nat) : ManOut :=
  if !s.ident.gen then .reject (s.evH .role [(16, manType m)])
  else match s.schedOf m with
    | none => .bad s
    | some sc => .done (s.takeSched sc)

/-! ## The flip (R293, R294) -/

/-- Layers in order of their first schedule entry. -/
def Sched.order (sc : Sched) : List Nat := sc.entries.eraseDups

/-- The staged copy of a block a flip to `w` writes: the newest not void with version at most `w`. -/
def State.stagedBlock (s : State) (w : Nat) (xs : List Staged) (b : Nat) : Option Nat :=
  let ok := xs.filter (fun x => decide (x.version ≤ w) && decide (s.refr.fullVer x.src x.quay x.entry ≤ x.version) && x.blocks.any (fun e => e.1 == b))
  (ok.foldl (fun a x => match a with
    | none => some x
    | some y => if y.version ≤ x.version then some x else some y) (none : Option Staged)).bind (fun x => (x.blocks.find? (fun e => e.1 == b)).map (fun e => s.stageRead x.pos e.2 (blockBytes x.fmt)))

/-- Write `n` bytes as masked line writes of the flip. -/
def State.flipBytes (s : State) (l addr n v : Nat) : State :=
  foldS (linesOf addr n) (fun a s => let pt := linePart addr n v a; s.opSubmit l .flip (.write pt.1 pt.2 false) a false 0) s

/-- Flip a quay's share of a layer to `w` (R294). -/
def State.flipShare (s : State) (l k w : Nat) (sc : Sched) : State :=
  let y := sc.layers.getD k (1, 0, 0, 0)
  let xs := s.refr.staged.filter (fun x => x.pos == l && decide (y.1 ≤ x.gtag) && decide (x.gtag ≤ y.2.1))
  let keys := ((xs.filter (fun x => decide (x.version ≤ w))).flatMap (fun x => x.blocks.map (fun b => (x.gtag, b.1)))).eraseDups
  let s0 := { s with refr := { s.refr with flipped := s.refr.flipped.set (k, l) w } }
  foldS keys (fun g s =>
    match s.stagedBlock w (xs.filter (fun x => x.gtag == g.1)) g.2, s.blockHome g.1 (List.range s.fit.nActive) g.2 with
    | some v, some (_, b) =>
      match blockIn ((s.lquay l).tagRegions g.1) b with
      | none => s
      | some (r, i) =>
        if isMx r.fmt then
          let w' := max r.ew 1
          let bk := (i / 4096, i % 4096)
          (s.flipBytes l (r.blockAddr w' bk) (4 * w') (v % 2 ^ (32 * w'))).flipBytes l (r.scaleAddr w' bk) 1 (v >>> (32 * w'))
        else s.flipBytes l (r.base * 4096 + 32 * i) 32 v
    | _, _ => s) s0

/-- Report on the control class the shares of layers whose flips have written all their lines (R294). -/
def State.flipReport (s : State) : State :=
  let busy := fun (k l : Nat) => (s.lquay l).ops.any (fun o => o.src == .flip && ((s.regionOf l o.addr).bind (fun r => s.layerOf r.tag)) == some k)
  let go := s.refr.flipped.filter (fun e => (s.phys e.1.2).isSome && s.refr.reported.get 0 e.1 != e.2 && !busy e.1.1 e.1.2)
  foldS go (fun e s => State.ringTo { s with refr := { s.refr with reported := s.refr.reported.set e.1 e.2 } } e.1.2 0 4 (.flipped e.1.1)) s

/-- The target of an eligible layer: the wavefront's version, or in a pass the pass version for a layer still behind it. -/
def State.flipTarget (s : State) (k l : Nat) : Option Nat :=
  let v := s.flipVer k l
  match s.refr.pass with
  | none => s.refr.w
  | some p =>
    if v < p.version then some p.version
    else if s.refr.eligible.contains k then p.w else none

/-- Ask for the shares a full ring has dropped lighters of, once a flip has freed space (R288). -/
def State.refrDropped (s : State) : State :=
  foldS s.refr.dropped (fun x s => s.refrAsk x.1 x.2.1 x.2.2) { s with refr := { s.refr with dropped := [] } }

/-- A wavefront has reached every layer on every quay, one under relief among them, and its last write is done: the version becomes current and the ring's space of its
records is free (R288, R294). -/
def State.flipEnd (s : State) : State :=
  match s.refr.w, s.refr.sched with
  | some w, some sc =>
    if !(List.range sc.layers.length).all (fun k => s.standing.all (fun l => decide (w ≤ s.flipVer k l))) ||
        s.lquays.any (fun l => (s.lquay l).ops.any (fun o => o.src == .flip)) then s
    else
      let s1 := s.nwFlip s.refr.cur w
      let r := s1.refr
      State.refrDropped { s1 with refr := { r with
        cur := w, held := true, w := none, staged := r.staged.filter (fun x => decide (w < x.version)),
        ends := r.ends.filter (fun e => decide (w < e.version)), bad := r.bad.filter (fun b => decide (w < b.2.2.2)) } }
  | _, _ => s

/-- Flip what is eligible; with no pass open a wavefront begins whenever a version is complete (R293). -/
def State.flipGo (s : State) : State :=
  match s.refr.sched with
  | none => s
  | some sc =>
    let s := s.stageLate
    let s1 := match s.refr.pass, s.refr.w, s.newest with
      | none, none, some v => { s with refr := { s.refr with w := some v, target := some v } }
      | _, _, _ => s
    let heldOf := fun (s : State) (l : Nat) => ((s.lquay l).ops.filter (fun o => o.stage == .waitFlip)).filterMap (fun o => (s.regionOf l o.addr).bind (fun r => s.layerOf r.tag))
    let s2 := foldS s1.lquays (fun l s =>
      foldS (sc.order.filter (fun k => (heldOf s l).contains k) ++ sc.order) (fun k s => match s.flipTarget k l with
        | some w => if s.flipVer k l < w then s.flipShare l k w sc else s
        | none => s) s) s1
    s2.flipReport.flipEnd

/-- FLIP_ELIGIBLE (R292, R293). -/
def State.flipEligible (s : State) : State :=
  match s.refr.pass with
  | none => s
  | some p =>
    let now := ((p.past.filter (fun e => s.passed e.2 (s.hpar .flipGrace))).map (·.1)).filter (fun k => !s.refr.eligible.contains k)
    if now.isEmpty then s else
    let w := if p.fixed then p.w else (s.newest.filter (fun v => decide (p.version < v)))
    { s with refr := { s.refr with eligible := s.refr.eligible ++ now, pass := some { p with w := w, fixed := true },
                                   w := if p.fixed then s.refr.w else (w.orElse (fun _ => s.refr.w)), target := if p.fixed then s.refr.target else (w.orElse (fun _ => s.refr.target)) } }

/-- A read of H_BATCH_OPEN (R291): closes the pass and opens the next. -/
def State.batchOpen (s : State) : State :=
  let mixed := (s.refr.pass.map (·.mixed)).getD false
  if !s.refr.held then { s with refr := { s.refr with pass := none, batchNone := true, batchMixed := mixed, passVer := 0 } }
  else
    let v := s.refr.target.getD s.refr.cur
    { s with refr := { s.refr with pass := some { version := v }, eligible := [], sched := s.refr.nextSched.orElse (fun _ => s.refr.sched), nextSched := none,
                                   batchNone := false, batchMixed := mixed, passVer := v } }

/-- Discard staging, passes and versions; the schedule in force stays, and one that applies from the next pass (R6, R173, R287, R297). -/
def State.refrDiscard (s : State) : State :=
  let s1 := { s with refr := { batchNone := s.refr.batchNone, batchMixed := s.refr.batchMixed, passVer := s.refr.passVer, sched := s.refr.sched, nextSched := s.refr.nextSched } }
  foldS (List.range s.fit.nActive) (fun l s => s.modPort l (fun p => { p with mirrorOk := [], refrVer := [] })) s1

end Sys2Proof.Machine
end

