-- ==== Sys2Proof/Machine/Locker.lean ====
section
/-! DEFINITION. The locker (R399 to R413): its requests, cold flush and restore. -/

namespace Sys2Proof.Machine

/-! ## Requests (R400, R401) -/

/-- A locker request's packet. -/
def LockReq.packet (r : LockReq) (dev : Nat) : Nat × Nat :=
  let n := if r.wr then r.lines.length else r.nread
  let h := withCrc 32 (pack [(8, if r.wr then 1 else 2), (8, n), (8, 0), (8, 0), (20, dev), (4, 0), (4, r.pos), (4, 0), (32, r.tag), (64, r.addr), (64, 0)])
  if r.wr then (32 + 136 * n, h + (pack (r.lines.map (fun x => (1088, (cline x false).1.toNat + (cline x false).2 <<< 1024)))) <<< 256) else (32, h)

/-- Send a request, or send it again. -/
def State.lockSend (s : State) (r : LockReq) : State := let p := r.packet s.ident.device; s.sendPkt r.pos 7 r.dev 0 p.1 p.2

/-- Hand a request to the locker `dev`. -/
def State.lockReq (s : State) (pos dev addr : Nat) (wr : Bool) (lines : List Line) (n what : Nat) : State :=
  let r : LockReq := { tag := s.locker.nextTag % 2 ^ 32, pos := pos, wr := wr, dev := dev, addr := addr, lines := lines, nread := n,
                       since := s.clock, tries := 1, what := what }
  State.lockSend { s with locker := { s.locker with nextTag := s.locker.nextTag + 1, reqs := s.locker.reqs ++ [r] } } r

/-- Cut a run of lines into requests of at most 32. -/
def lineRuns : Nat → Nat → List Line → List (Nat × List Line)
  | 0, _, _ => []
  | n + 1, a, ls => if ls.isEmpty then [] else (a, ls.take 32) :: lineRuns n (a + 4096) (ls.drop 32)

/-- Write a run of lines. -/
def State.lockWrite (s : State) (pos addr what : Nat) (ls : List Line) : State :=
  foldS (lineRuns (ls.length / 32 + 1) addr ls) (fun r s => s.lockReq pos (s.hpar .lockerDev) r.1 true r.2 r.2.length what) s

/-- Read a run of lines from the locker of `dev`. -/
def State.lockRead (s : State) (pos dev addr n what : Nat) : State :=
  foldS (List.range (cdiv n 32)) (fun i s => s.lockReq pos dev (addr + 4096 * i) false [] (min 32 (n - 32 * i)) what) s

/-- Address of a byte of a slot. -/
def State.slotAddr (s : State) (slot off : Nat) : Nat := s.hpar .lockerBase + slot * s.hpar .lockerSlot + off

/-- Whether a replica table is in force: RCOUNT, MYRIDX (R405, R483). -/
def State.rcount (s : State) : Nat := max (fld (s.hw 0xA0) 7 0) 1
def State.myRidx (s : State) : Nat :=
  ((List.range s.rcount).find? (fun i => fld (s.hw (0x1800 + 8 * i)) 19 0 == s.ident.device)).elim 0 (fun i => fld (s.hw (0x1804 + 8 * i)) 15 8)

/-- The locker device of the replica with an index. -/
def State.ridxLocker (s : State) (x : Nat) : Nat :=
  if s.rcount == 1 || x == s.myRidx then s.hpar .lockerDev else
  ((List.range s.rcount).find? (fun i => fld (s.hw (0x1804 + 8 * i)) 15 8 == x)).elim 0xFFFFF
    (fun i => fld (s.hw (0x1800 + 8 * i)) 31 20 + (fld (s.hw (0x1804 + 8 * i)) 7 0) <<< 12)

/-- Whether the tag of a unit is marked in FLUSHTAG. -/
def State.flushTag (s : State) (l u : Nat) : Bool :=
  match (s.lquay l).addrOfUnit u with
  | none => false
  | some a => match s.regionOf l a with
    | none => false
    | some r => bitOf (s.hw (0x1400 + 4 * (r.tag / 32))) (r.tag % 32)

/-- The protected units of a quay that the replica with index `x` writes, ascending (R405). -/
def State.unitsOf (s : State) (l x : Nat) : List Nat :=
  (List.range (s.lquay l).protUnits).filter (fun u => !s.flushTag l u || u % s.rcount == x)

/-- 4 KiB units of a quay's area: its units and the check array. -/
def areaUnits (n : Nat) : Nat := n + cdiv (n * 128) 4096

/-- Where the area of a quay begins, in units (R402). -/
def State.areaStart (s : State) (l x : Nat) : Nat :=
  21 + ((List.range l).map (fun q => areaUnits (s.unitsOf q x).length)).foldl (· + ·) 0

/-- Bytes of a slot a flush needs. -/
def State.slotNeed (s : State) : Nat := 4096 * s.areaStart s.fit.nActive s.myRidx

/-- The flush directory line. -/
def State.dirLine (s : State) : Line :=
  BitVec.ofNat 1024 (pack ((List.range 16).flatMap (fun l => if l < s.fit.nActive then [(32, s.areaStart l s.myRidx), (32, (s.unitsOf l s.myRidx).length)] else [(64, 0)])))

/-! ## The commit record (R403) -/

/-- A commit record's line. -/
def State.commitLine (s : State) (f : Flush) : Line :=
  BitVec.ofNat 1024 (withCrc 128 (pack [(32, 0x4B434F4C), (32, f.gen), (16, s.job.tag), (48, f.m), (20, s.ident.device), (4, 0), (8, s.myRidx),
    (64, s.ident.uid), (8, s.rcount), (24, 0), (64, f.bytes), (64, f.w), (64, s.tide.now), (32, f.dcrc), (512, 0)]))

/-- Whether a slot is committed, its lines as they were read: MAGIC, CCRC, and DCRC over unit 1, lines 0 to 2 (R403). -/
def State.slotOk (s : State) (line : Nat → Line) (i : Nat) : Bool :=
  let x := (line (s.slotAddr i 0)).toNat
  let one := ofBytes (([0, 128, 256] : List Nat).flatMap (fun o => bytesOf 128 (line (s.slotAddr i (4096 + o))).toNat))
  byt x 3 0 == 0x4B434F4C && crcOk 128 x && crcOf 384 one == byt x 59 56

/-- The committed slots among those read. -/
def State.slotsOf (s : State) (line : Nat → Line) : Tbl Nat Slot :=
  (([0, 1] : List Nat).filter (s.slotOk line)).map (fun i =>
    let x := (line (s.slotAddr i 0)).toNat
    (i, { gen := byt x 7 4, step := byt x 15 10 }))

/-- Read what tells whether the slots at a locker are committed. -/
def State.readHeads (s : State) (dev what : Nat) : State :=
  foldS [0, 1] (fun i s => (s.lockRead 0 dev (s.slotAddr i 0) 1 what).lockRead 0 dev (s.slotAddr i 4096) 3 what) s

/-! ## Completion records (R410) -/

def State.flushRecord (s : State) (cpl step status reason slot gen w : Nat) : State :=
  s.ownWrite 0 cpl 32 (withCrc 32 (pack [(48, step), (8, status), (8, reason), (8, slot), (24, 0), (32, gen), (64, w), (32, s.tide.now % 2 ^ 32)]))

/-- The flush ends: its requests and pins go, its record is written (R410, R411). -/
def State.flushEnd (s : State) (status reason : Nat) : State :=
  match s.locker.flush with
  | none => s
  | some f =>
    let s1 := { s with locker := { s.locker with flush := none, reqs := s.locker.reqs.filter (fun r => r.what != 0), pins := none } }
    let s2 := foldS s1.lquays (fun l s => foldS ((s.port l).log.segs.filter (fun x => x.state == 4 && (match s.refr.pins with
      | none => true
      | some m => decide (x.step ≤ m)))) (fun x s => s.segFree l x.slot) s) s1
    (foldS s2.lquays (fun l s => s.berthSync l) s2).flushRecord f.cpl f.m status reason f.slot (if status == 1 then f.gen else 0) f.w

/-- The mooring tallies launched before W and not yet decided (R404). -/
def State.talliesBefore (s : State) (w : Nat) : List Nat :=
  (s.coll.run.filter (fun c => c.l.mark == 2 && decide (c.l.ltide < w))).map (·.l.step)

/-- The newest moored step whose deciding tally was launched before W (R404); the step a job began with has none. -/
def State.mooredBefore (s : State) (w : Nat) : Nat :=
  match s.steps.mooredAt.find? (fun e => decide (e.2 < w)) with
  | some e => e.1
  | none => (s.steps.mooredAt.getLast?).elim s.steps.moored (fun e => e.1 - 1)

/-- Start a flush at W (R404): the segments of later steps are pinned. -/
def State.flushStart (s : State) (w cpl : Nat) (man : Bool) : State :=
  let last := (s.talliesBefore w).foldl max (s.mooredBefore w)
  { s with locker := { s.locker with flush := some { w := w, cpl := cpl, man := man }, pins := some last } }

/-- A cold-flush request manifest at its EFFECT (R404, R408). Before a confirm is judged, the slots are read, if they have not been yet: it waits
for that, and is rejected where they cannot be read. -/
def State.manFlush (s : State) (m : Nat) : ManOut :=
  let kind := byt m 32 32
  let cpl := byt m 47 40
  if kind == 2 && !s.locker.known then
    (if s.locker.headFail then .bad { s with locker := { s.locker with headFail := false } }
    else if s.hpar .lockerDev == 0xFFFFF then .bad s
    else if s.locker.reqs.any (fun r => r.what == 2) then .wait s
    else .wait (s.readHeads (s.hpar .lockerDev) 2))
  else if kind == 2 then
    (if s.locker.slots.any (fun e => e.2.step == byt m 39 34) then
      .done { s with locker := { s.locker with confirmed := (s.locker.slots.find? (fun e => e.2.step == byt m 39 34)).map (·.1) } }
    else .bad s)
  else if kind != 1 || manEffect m == 0 || byt m 39 34 != 0 || cpl % 32 != 0 || s.kindOf 0 cpl != 0 then .bad s
  else if s.locker.flush.isSome then .wait s
  else if s.hpar .lockerDev == 0xFFFFF then .done (s.flushRecord cpl 0 3 7 0 0 (manEffect m))
  else if !s.steps.anyMoored && (s.talliesBefore (manEffect m)).isEmpty then .done (s.flushRecord cpl 0 3 0 0 0 (manEffect m))
  else .done (s.flushStart (manEffect m) cpl true)

/-! ## The flush (R407, R409) -/

/-- The slot a flush writes (R409). -/
def State.flushSlot (s : State) : Nat :=
  match s.locker.confirmed with
  | some c => 1 - c
  | none =>
    match s.locker.slots.find 0, s.locker.slots.find 1 with
    | none, _ => 0
    | some _, none => 1
    | some a, some b => if Seq.later (BitVec.ofNat 32 b.gen) (BitVec.ofNat 32 a.gen) then 0 else 1

/-- One later than the newest commit (R403). -/
def State.flushGen (s : State) : Nat :=
  (s.locker.slots.foldl (fun (a : Option Nat) e => match a with
    | none => some e.2.gen
    | some g => if Seq.later (BitVec.ofNat 32 e.2.gen) (BitVec.ofNat 32 g) then some e.2.gen else some g) none).elim 1 (fun g => (g + 1) % 2 ^ 32)

/-- The lines of units 1 to 20, by offset in the slot (R402): the records of m and of the step moored before it, directory, UIDs, and the
replicas for m. -/
def State.flushUnits (s : State) (m : Nat) : List (Nat × Line) :=
  let upTo := s.steps.records.filter (fun r => decide (recStep r ≤ m))
  let own := if upTo.length < 2 then (0 : Line) :: upTo else upTo.drop (upTo.length - 2)
  let uids := BitVec.ofNat 34816 (pack ((List.range 544).map (fun i => (64, s.job.uids.get 0 (i / 34, i % 34)))))
  [(4096, own.getD 1 0), (4096 + 128, own.getD 0 0), (4096 + 256, s.dirLine)] ++
  (List.range 34).map (fun i => (8192 + 128 * i, BitVec.ofNat 1024 (fld uids.toNat (1024 * i + 1023) (1024 * i)))) ++
  (List.range 544).map (fun i => (16384 + 128 * i, ((s.steps.replicas.get [] (i / 34, i % 34)).find? (fun v => recStep v == m)).getD 0))

/-- The data of a quay's area: units and check array. -/
def State.areaLines (s : State) (l m : Nat) : List Line × List Line :=
  let data := (s.unitsOf l s.myRidx).flatMap (fun u => match (s.lquay l).addrOfUnit u with
    | none => List.replicate 32 (0 : Line)
    | some a => (List.range 32).map (fun i => s.pitLine l (a + 128 * i) m))
  let crcs := data.map lineCrc
  let arr := (List.range (cdiv data.length 32)).map (fun i => BitVec.ofNat 1024 (pack (((crcs.drop (32 * i)).take 32).map (fun c => (32, c)))))
  (data, arr)

/-- The lines of a quay that a flush still needs rebuilt. -/
def State.flushBad (s : State) (l : Nat) : List Nat :=
  ((s.unitsOf l s.myRidx).filterMap (fun u => (s.lquay l).addrOfUnit u)).flatMap (fun a =>
    ((List.range 32).map (fun i => a + 128 * i)).filter (fun x => s.optInput l x == .wait))

/-- Read-buffer berths of a flush on a quay: 64 KiB each, at most four (R308). -/
def State.flushBerths (s : State) (l : Nat) : Nat := min 4 (cdiv (4096 * (s.unitsOf l s.myRidx).length) 65536)

/-- Ask for the read buffers still wanted. -/
def State.flushClaim (s : State) : State :=
  foldS s.lquays (fun l s =>
    let p := (s.lquay l).pools
    let n := (p.live.filter (fun b => b.owner == .flush)).length + (p.queue.filter (fun b => b.owner == .flush)).length
    foldS (List.range (s.flushBerths l - n)) (fun _ s => ((s.parkBelow l 4 4).berthAlloc l 4 .flush 0 .wait).1) s) s

/-- Whether every quay has its read buffers. -/
def State.flushHas (s : State) : Bool :=
  s.lquays.all (fun l => decide (s.flushBerths l ≤ ((s.lquay l).pools.live.filter (fun b => b.owner == .flush)).length))

/-- The flush is repeated from the start (R312). -/
def State.flushAgain (s : State) (f : Flush) : State :=
  let s1 := { s with locker := { s.locker with flush := some { w := f.w, cpl := f.cpl, parked := f.parked, man := f.man } } }
  foldS s1.lquays (fun l s => s.berthFreeWork l .flush 0) s1

/-- Write a quay's area (R407). -/
def State.flushArea (s : State) (f : Flush) (l : Nat) : State :=
  let a := s.areaLines l f.m
  let base := s.slotAddr f.slot (4096 * s.areaStart l s.myRidx)
  (s.lockWrite l base 0 a.1).lockWrite l (base + 128 * a.1.length) 0 a.2

/-- A run of lines of units 1 to 20. -/
def Flush.run (f : Flush) (lo n : Nat) : List Line := (List.range n).map (fun i => (f.unit.find? (fun e => e.1 == lo + 128 * i)).elim 0 (·.2))

/-- Logical quay 0 writes units 1 to 20 (R407). -/
def State.flushFixed (s : State) (f : Flush) : State :=
  ((s.lockWrite 0 (s.slotAddr f.slot 4096) 0 (f.run 4096 3)).lockWrite 0 (s.slotAddr f.slot 8192) 0 (f.run 8192 34)).lockWrite
    0 (s.slotAddr f.slot 16384) 0 (f.run 16384 544)

/-- Bytes of the lines a flush writes before its commit record: the zeros, units 1 to 20, and of each quay's unit 32 lines and one of check
values (R403, log 94). -/
def State.flushBytes (s : State) : Nat :=
  128 * (1 + 3 + 34 + 544 + ((List.range s.fit.nActive).map (fun l => 33 * (s.unitsOf l s.myRidx).length)).foldl (· + ·) 0)

/-- Write the areas and units 1 to 20 (R407), once every line reads sound and no replay has still to pass a unit of them (R126). A read
buffer whose access fails its check starts the flush over (R312). -/
def State.flushWrite (s : State) (f : Flush) : State :=
  let bad := s.lquays.flatMap (fun l => (s.flushBad l).map (fun a => (l, a)))
  let use := s.lquays.foldl (fun (a : State × Bool) l => if a.2 then a.1.berthUse l .flush 0 (.access 0 128) else a) (s, true)
  if s.lquays.any (fun l => (s.unitsOf l s.myRidx).any (s.unitReplaying l)) then s
  else if !bad.isEmpty then foldS bad (fun x s => s.demandSalvage x.1 x.2) s
  else if !use.2 then use.1.flushAgain f
  else
    let s1 := (foldS s.lquays (fun l s => s.flushArea f l) s).flushFixed f
    let d := ofBytes ((f.run 4096 3).flatMap (fun x => bytesOf 128 x.toNat))
    { s1 with locker := { s1.locker with flush := some { f with phase := .writing, bytes := s.flushBytes, dcrc := crcOf 384 d } } }

/-- The relief quay of a quay that wrote its area is to write it again from the start, and the commit follows; other locker requests of the quay are sent again (R411). -/
def State.flushRelief (s : State) (l : Nat) : State :=
  let again := s.locker.flush.any (fun f => f.phase == .writing || f.phase == .committing)
  let s1 := if !again then s else { s with locker := { s.locker with
    reqs := s.locker.reqs.filter (fun x => x.pos != l || x.what != 0), flush := s.locker.flush.map (fun f => { f with phase := .writing, redo := l :: f.redo.filter (· ≠ l) }) } }
  foldS (s1.locker.reqs.filter (fun x => x.pos == l)) (fun x s => s.lockSend x) s1

/-- Write a relieved quay's area again, as logical quay 0 units 0 to 20 too, once its read buffers are there and its lines read sound (R308,
R411). -/
def State.flushRedo (s : State) (f : Flush) (l : Nat) : State :=
  if (s.phys l).isNone || !(s.flushBad l).isEmpty || (s.unitsOf l s.myRidx).any (s.unitReplaying l) then s else
  let s1 := s.flushClaim
  if !s1.flushHas then s1 else
  let s2 := if l == 0 then ((s1.lockWrite 0 (s1.slotAddr f.slot 0) 0 [0]).flushArea f l).flushFixed f else s1.flushArea f l
  { s2 with locker := { s2.locker with flush := s2.locker.flush.map (fun g => { g with redo := g.redo.filter (· ≠ l) }) } }

/-- Move a flush on: its mooring point is fixed even while it is parked, and while a quay is under relief no area is begun (R139, R404, R411). -/
def State.flushGo (s : State) : State :=
  match s.locker.flush with
  | none => s
  | some f =>
    let quietReqs := !s.locker.reqs.any (fun r => r.what == 0)
    if s.quiet then s.flushEnd 2 3
    else if s.locker.pins.isNone then
      let s1 := s.flushEnd 2 1
      if s1.steps.anyMoored then s1.flushStart s.tide.now f.cpl f.man else s1
    else if (f.parked && f.phase != .waiting) || (s.reliefs.any (fun x => x.st != .inService) && f.phase != .writing && f.phase != .committing) then s
    else match f.phase with
    | .waiting =>
      if !(s.talliesBefore f.w).isEmpty then s
      else if !s.steps.anyMoored || s.mooredBefore f.w == 0 then
        let s1 := { s with locker := { s.locker with flush := none, pins := none } }
        if f.man then s1.flushRecord f.cpl 0 3 0 0 0 f.w else s1
      else
        let m := s.mooredBefore f.w
        let f1 := { f with m := m, unit := s.flushUnits m, phase := .slots }
        let s1 := { s with locker := { s.locker with flush := some f1, pins := some m } }
        if s.hpar .lockerSlot < s.slotNeed then s1.flushEnd 3 6
        else if s.locker.known then s1
        else s1.readHeads (s.hpar .lockerDev) 0
    | .slots =>
      if !quietReqs then s
      else
        let s1 := if s.locker.known then s else { s with locker := { s.locker with known := true, slots := s.slotsOf (f.heads.get 0) } }
        let sl := s1.flushSlot
        let f1 := { f with slot := sl, gen := s1.flushGen, phase := .zeroing, heads := [] }
        State.lockWrite { s1 with locker := { s1.locker with flush := some f1, slots := s1.locker.slots.del sl } } 0 (s1.slotAddr sl 0) 0 [0]
    | .zeroing =>
      if !quietReqs then s else
      let s1 := s.flushClaim
      if s1.flushHas then s1.flushWrite f else s1
    | .writing =>
      if !f.redo.isEmpty then foldS f.redo (fun l s => s.flushRedo f l) s
      else if !quietReqs then s
      else State.lockWrite { s with locker := { s.locker with flush := some { f with phase := .committing } } } 0 (s.slotAddr f.slot 0) 0 [s.commitLine f]
    | .committing =>
      if !quietReqs then s
      else State.flushEnd { s with locker := { s.locker with slots := s.locker.slots.set f.slot { gen := f.gen, step := f.m } } } 1 0

/-! ## Restore (R412, R413) -/

/-- Refuse a restore before it is applied: what it asked is given up. -/
def State.restoreFail (s : State) : State :=
  State.restoreRefuse { s with locker := { s.locker with restore := none, reqs := s.locker.reqs.filter (fun r => r.what != 1) } }

/-- The lockers a restore reads: the device's own, and those of the replicas that hold FLUSHTAG units of other indices. -/
def State.restoreDevs (s : State) : List Nat :=
  (s.hpar .lockerDev :: ((List.range s.rcount).filter (fun x => x != s.myRidx && s.lquays.any (fun l => (List.range (s.lquay l).protUnits).any (fun u => s.flushTag l u && u % s.rcount == x)))).map s.ridxLocker).eraseDups

/-- Start a restore of step `m`: read what tells of both commits at each locker. -/
def State.restoreStart (s : State) (m : Nat) : State :=
  if s.hpar .lockerDev == 0xFFFFF then s.restoreFail else
  let s1 := { s with locker := { s.locker with restore := some { m := m } } }
  foldS s1.restoreDevs (fun d s => s.readHeads d 1) s1

/-- A line a restore has read. -/
def Restore.line (r : Restore) (dev addr : Nat) : Line := r.lines.get 0 (dev, addr)

/-- The committed slot of a device with STEP m. -/
def State.restoreSlot (s : State) (r : Restore) (dev : Nat) : Option Nat :=
  ([0, 1] : List Nat).find? (fun i => s.slotOk (r.line dev) i && byt (r.line dev (s.slotAddr i 0)).toNat 15 10 == r.m)

/-- The replica index whose locker holds a unit. -/
def State.unitRidx (s : State) (l u : Nat) : Nat := if s.flushTag l u then u % s.rcount else s.myRidx

/-- Where a unit's data and its check values lie: locker, slot, offset of the data and of the 128 B of check values. -/
def State.unitPlace (s : State) (r : Restore) (l u : Nat) : Nat × Nat × Nat :=
  let x := s.unitRidx l u
  let dev := s.ridxLocker x
  let us := s.unitsOf l x
  let i := (us.findIdx? (· == u)).getD 0
  let dir := r.line dev (s.slotAddr (r.slots.get 0 dev) (4096 + 256))
  let start := if x == s.myRidx then s.areaStart l x else fld dir.toNat (64 * l + 31) (64 * l)
  let base := s.slotAddr (r.slots.get 0 dev) (4096 * start)
  (dev, base + 4096 * i, base + 4096 * us.length + 128 * i)

/-- The units of the registered UIDs and of the replicas hold zeros, but for the entries written after (R133). -/
def State.clearReplicas (s : State) : State := s.zeroArea 0 (s.hpar .recBase + 4096) (36 * 4096)

/-- Register the UID of a convoy's position, beside the replicas (R133, R171). -/
def State.regUid (s : State) (c x uid : Nat) : State :=
  ({ s with job := { s.job with uids := s.job.uids.set (c, x) uid } } : State).ownWrite 0 (s.hpar .recBase + 4096 + 8 * (34 * c + x)) 8 uid

/-- Put the lines read where they belong: lines with their shadow entries, records, UIDs, replicas; the parity is anchored next. -/
def State.restoreApply (s : State) (r : Restore) : State :=
  let own := s.hpar .lockerDev
  let sl := r.slots.get 0 own
  let s1 := foldS s.lquays (fun l s =>
    (foldS (List.range (s.lquay l).protUnits) (fun u s =>
      let p := s.unitPlace r l u
      match (s.lquay l).addrOfUnit u with
      | none => s
      | some a => foldS (List.range 32) (fun i s =>
        let x := r.line p.1 (p.2.1 + 128 * i)
        let s' := s.issueWrite l (a + 128 * i) fullMask x false .own
        match s.dataShadow l (a + 128 * i) with
        | none => s'
        | some sh => s'.shadowPut l sh i (lineCrc x)) s) s).shadowFlushAll l) s
  let s2 := (s1.putRecord (r.line own (s.slotAddr sl (4096 + 128)))).putRecord (r.line own (s.slotAddr sl 4096))
  let s3 := foldS (List.range 544) (fun i s =>
    let x := r.line own (s.slotAddr sl (16384 + 128 * i))
    let u := fld (r.line own (s.slotAddr sl (8192 + 128 * (i / 16)))).toNat (64 * (i % 16) + 63) (64 * (i % 16))
    let s' := if u == 0 then s else s.regUid (i / 34) (i % 34) u
    if x = 0 then s' else s'.putReplica (i / 34) (i % 34) x) s2.clearReplicas
  let m := r.line own (s.slotAddr sl 4096)
  let s4 := { s3 with steps := { s3.steps with moored := r.m, anyMoored := true, last := r.m, restored := true,
                                               expCursor := (byt m.toNat 23 16 + byt m.toNat 35 32) % 2 ^ 64 },
                      locker := { s3.locker with confirmed := some sl, known := true, restore := none, relays := [] } }
  let s5 := foldS s3.locker.relays (fun e s => s.restoreRelay e.1 e.2.1 e.2.2.1 e.2.2.2) s4
  foldS s5.convoys (fun c s => foldS (s.otherPos c) (fun x s => s.sendVote c x r.m 2 c.pos (some m) 0 0) s) s5

/-- The record before a record read from the locker. DESIGN CHOICE (log 107): where that place holds zeros, the locker's record is that of the
job's first moored step, and the step-0 record of its own JOB, SEED and CURSOR stands before it (R132, R135). -/
def recBefore (prev m : Line) : Line :=
  if prev = 0 then stepZero (byt m.toNat 1 0) (byt m.toNat 15 8) (byt m.toNat 23 16) else prev

/-- Move a restore on once nothing it asked is outstanding. Answers whether it has been applied. -/
def State.restoreNext (s : State) : State × Bool :=
  match s.locker.restore with
  | none => (s, false)
  | some r =>
    if s.locker.reqs.any (fun q => q.what == 1) then (s, false)
    else
      let own := s.hpar .lockerDev
      match r.stage with
      | 0 =>
        let found := s.restoreDevs.map (fun d => (d, s.restoreSlot r d))
        let x := r.line own (s.slotAddr ((s.restoreSlot r own).getD 0) 0)
        if found.any (fun f => f.2.isNone) || byt x.toNat 27 20 != s.ident.uid then (s.restoreFail, false)
        else
          let slots := found.map (fun f => (f.1, f.2.getD 0))
          let s1 := { s with locker := { s.locker with restore := some { r with stage := 1, slots := slots }, slots := s.slotsOf (r.line own) } }
          let sl := slots.foldl (fun a e => if e.1 == own then e.2 else a) 0
          ((s1.lockRead 0 own (s.slotAddr sl 8192) 34 1).lockRead 0 own (s.slotAddr sl 16384) 544 1, false)
      | 1 =>
        let sl := r.slots.get 0 own
        let m := r.line own (s.slotAddr sl 4096)
        let prev := r.line own (s.slotAddr sl (4096 + 128))
        let chain := BitVec.ofNat 256 (mdigest (recBefore prev m) (m.toNat % 2 ^ 512)) == BitVec.ofNat 256 (fld m.toNat 767 512)
        if !crcOk 128 m.toNat || byt m.toNat 7 2 != r.m || !chain || (byt m.toNat 23 16 + byt m.toNat 35 32) % 2 ^ 64 != s.job.startCursor then (s.restoreFail, false)
        else
          let s1 := { s with locker := { s.locker with restore := some { r with stage := 2 } } }
          (foldS s.lquays (fun l s => foldS (List.range (s.lquay l).protUnits) (fun u s =>
            let p := s.unitPlace r l u
            (s.lockRead l p.1 p.2.1 32 1).lockRead l p.1 p.2.2 1 1) s) s1, false)
      | _ =>
        let bad := s.lquays.any (fun l => (List.range (s.lquay l).protUnits).any (fun u =>
          let p := s.unitPlace r l u
          let chk := r.line p.1 p.2.2
          (List.range 32).any (fun i => lineCrc (r.line p.1 (p.2.1 + 128 * i)) != fld chk.toNat (32 * i + 31) (32 * i))))
        if bad then (s.restoreFail, false) else (s.restoreApply r, true)

/-! ## Answers and timeouts (R401) -/

/-- A request has failed once: sent again, or what it belongs to is given up. -/
def State.lockFail (s : State) (r : LockReq) : State :=
  if s.hpar .lockerTries ≤ r.tries then
    (if r.what == 1 then s.restoreFail
    else if r.what == 2 then { s with locker := { s.locker with headFail := true, heads := [], reqs := s.locker.reqs.filter (fun x => x.what != 2) } }
    else s.flushEnd 2 2)
  else
    let r' := { r with tries := r.tries + 1, since := s.clock }
    State.lockSend { s with locker := { s.locker with reqs := mapIf (fun x => x.tag == r.tag) (fun _ => r') s.locker.reqs } } r'

/-- A write answer or a read reply (R400). -/
def State.lockAnswer (s : State) (l : Nat) (f : Frame) (wr : Bool) : State :=
  let n := byt f.pkt 1 1
  let kind := byt f.pkt 0 0
  if !crcOk 32 (f.pkt % 2 ^ 256) || kind != (if wr then 9 else 10) || n == 0 || 32 < n || (!wr && byt f.pkt 2 2 == 0 && f.len != 32 + 136 * n) then s.pktDrop l
  else match s.locker.reqs.find? (fun r => r.tag == byt f.pkt 11 8 && r.wr == wr && r.pos == l) with
    | none => s.countL l 0x0D 1
    | some r =>
      if byt f.pkt 2 2 != 0 then s.lockFail r
      else
        let ls := if wr then [] else collLines f.pkt n
        if ls.any (fun x => !x.ok || x.poison) || (!wr && n != r.nread) then s.lockFail r
        else
          let s1 := { s with locker := { s.locker with reqs := s.locker.reqs.filter (fun x => x.tag != r.tag) } }
          if wr then s1
          else if r.what == 2 then
            let heads := ls.zipIdx.foldl (fun (tb : Tbl Nat Line) e => tb.set (r.addr + 128 * e.2) e.1.1) s1.locker.heads
            let s2 := { s1 with locker := { s1.locker with heads := heads } }
            if s2.locker.reqs.any (fun x => x.what == 2) then s2
            else { s2 with locker := { s2.locker with heads := [], known := true, slots := if s2.locker.known then s2.locker.slots else s2.slotsOf (heads.get 0) } }
          else if r.what == 0 then
            match s1.locker.flush with
            | none => s1
            | some f =>
              let heads := ls.zipIdx.foldl (fun (tb : Tbl Nat Line) e => tb.set (r.addr + 128 * e.2) e.1.1) f.heads
              { s1 with locker := { s1.locker with flush := some { f with heads := heads } } }
          else match s1.locker.restore with
            | none => s1
            | some t =>
              let lines := ls.zipIdx.foldl (fun tb e => tb.set (r.dev, r.addr + 128 * e.2) e.1.1) t.lines
              { s1 with locker := { s1.locker with restore := some { t with lines := lines } } }

/-- LOCKER_ACK_TIMEOUT: re-send what has waited LOCKER_ACK_T. -/
def State.lockTimeout (s : State) (l : Nat) : State :=
  foldS (s.locker.reqs.filter (fun r => r.pos == l && s.passed r.since (s.lpar l .lockerAckT))) (fun r s =>
    if s.locker.reqs.any (fun x => x.tag == r.tag) then s.lockFail r else s) s

end Sys2Proof.Machine
end

