-- ==== Sys2Proof/Machine/Remote.lean ====
section
/-! DEFINITION. Remote loads, stores and atomics (R243 to R271): the source of items, the target's admission and application,
answers, the remote-read cache and the combining buffer. -/

namespace Sys2Proof.Machine

/-! ## Windows (R244, R246) -/

/-- A job-window entry. -/
structure Win where
  valid : Bool
  scope : Bool
  quay  : Nat
  perm  : Nat
  base  : Nat
  size  : Nat
  deriving DecidableEq, Repr

def State.window (s : State) (w : Nat) : Win :=
  let w0 := s.hw (0x1000 + 16 * w)
  { valid := bitOf w0 31, scope := bitOf w0 30, quay := fld w0 29 26, perm := fld w0 25 23,
    base := fld (s.hw (0x1004 + 16 * w)) 27 0, size := fld (s.hw (0x1008 + 16 * w)) 27 0 }

/-- Whether a window is open to a job tag (R246). -/
def State.winOpen (s : State) (w : Win) (job : Nat) : Bool :=
  w.valid && (if w.scope then job == 0 && s.sec.state != .sealed else s.jobOn && job == s.job.tag)

/-! ## Packets (R249, R250) -/

/-- The remote header. -/
structure RHdr where
  kind   : Nat
  resend : Bool
  nitem  : Nat
  job    : Nat
  epoch  : Nat
  src    : Nat
  srcq   : Nat
  dstq   : Nat
  dst    : Nat
  win    : Nat
  rseq   : Nat
  low    : Nat
  itide  : Nat
  deriving DecidableEq, Repr

def RHdr.enc (h : RHdr) : Nat :=
  withCrc 48 (pack [(4, h.kind), (1, b2n h.resend), (3, 0), (8, h.nitem), (16, h.job), (32, h.epoch), (20, h.src), (4, 0), (4, h.srcq),
    (4, h.dstq), (20, h.dst), (4, 0), (4, h.win), (4, 0), (32, h.rseq), (32, h.low), (64, h.itide), (96, 0)])

def RHdr.dec (v : Nat) : RHdr :=
  { kind := fld v 3 0, resend := bitOf v 4, nitem := byt v 1 1, job := byt v 3 2, epoch := byt v 7 4, src := fld v 83 64,
    srcq := fld v 91 88, dstq := fld v 95 92, dst := fld v 115 96, win := fld v 123 120, rseq := byt v 19 16, low := byt v 23 20,
    itide := byt v 31 24 }

/-- Bytes of an item of a request. -/
def itemSize (kind : Nat) : Nat := if kind == 1 then 8 else if kind == 2 then 160 else 32

/-- Item `n` of a request packet. -/
def reqItem (pkt kind n : Nat) : Nat := fld pkt (384 + 8 * itemSize kind * (n + 1) - 1) (384 + 8 * itemSize kind * n)

/-- The line trailer: CRC-32C and poison mark. -/
def trailer (x : Line) (poison : Bool) : Nat := pack [(32, lineCrc x), (1, b2n poison)]

/-! ## The remote-read cache (R261 to R263) -/

/-- A number that names a cached line. -/
def RrcLine.key (r : RrcLine) : Nat := pack [(16, r.job), (20, r.dev), (4, r.win), (40, r.off), (4, r.fmt)]

/-- The set of a line: its line number in the window modulo 2,048 (log 22). -/
def RrcLine.set (r : RrcLine) : Nat := r.off / 128 % 2048

def RrcLine.same (a b : RrcLine) : Bool := a.job == b.job && a.dev == b.dev && a.win == b.win && a.off == b.off && a.fmt == b.fmt

/-- Fill a line as the most recently used of its set; the seventeenth of a set goes. -/
def rrcFill (c : List RrcLine) (x : RrcLine) : List RrcLine :=
  let rest := c.filter (fun y => !y.same x)
  let set := rest.filter (fun y => y.set == x.set)
  match set[15]? with
  | some last => x :: rest.filter (· ≠ last)
  | none => x :: rest

/-- Invalidate lines; the fill generation advances (R263). -/
def Rmt.invalidate (r : Rmt) (p : RrcLine → Bool) : Rmt := { r with rrc := r.rrc.filter (fun x => !p x), gen := r.gen + 1 }

/-- Invalidate on every quay. -/
def State.rrcDrop (s : State) (p : RrcLine → Bool) : State :=
  foldS s.lquays (fun l s => s.modLquay l (fun q => { q with rmt := q.rmt.invalidate p })) s

/-- REMOTE_READ_CACHE_INVALIDATE (R263). -/
def State.manRrc (s : State) (m : Nat) : ManOut :=
  let scope := byt m 32 32
  let win := fld m 267 264
  let dev := fld m 291 272
  let off := byt m 44 40
  let n := byt m 51 48
  match scope with
  | 1 => .done (s.rrcDrop (fun _ => true))
  | 2 => .done (s.rrcDrop (fun x => x.dev == dev))
  | 3 => if off % 128 != 0 || n == 0 || 2 ^ 24 < n then .bad s else
    .done (s.rrcDrop (fun x => x.dev == dev && x.win == win && decide (off ≤ x.off) && decide (x.off < off + 128 * n)))
  | _ => .bad s

/-! ## The source (R252, R254, R259, R260) -/

/-- The request item of an outstanding item. -/
def Oot.item (o : Oot) : Nat :=
  let r := o.req
  match o.kind with
  | 1 => pack [(40, r.addr), (4, r.fmt), (20, 0)]
  | 2 => pack [(40, r.addr), (24, 0), (128, r.mask.toNat), (1024, r.data.toNat), (64, trailer r.data r.poison)]
  | _ => withCrc 32 (pack [(40, r.addr), (4, r.aop), (1, b2n r.noret), (3, 0), (8, r.atype), (8, 0), (64, r.data.toNat % 2 ^ 64),
      (64, if r.aop == 4 then fld r.data.toNat 127 64 else 0), (32, 0)])

/-- Lowest unanswered RSEQ of a stream: the next one where none is unanswered (R249). -/
def Rmt.low (r : Rmt) (dev quay job : Nat) : Seq :=
  let os := r.oot.filter (fun o => o.kind != 1 && o.st != .held && o.req.dev == dev && o.quay == quay && o.job == job)
  os.foldl (fun a o => if Seq.later a o.rseq then o.rseq else a) ((r.streams.get {} (job, dev, quay)).next)

/-- Send an item's packet. -/
def State.rmtSend (s : State) (l : Nat) (o : Oot) (resend : Bool) : State :=
  let h : RHdr := { kind := o.kind, resend := resend, nitem := 1, job := o.job, epoch := s.job.epoch, src := s.ident.device, srcq := l,
                    dstq := o.quay, dst := o.req.dev, win := o.req.win, rseq := if o.kind == 1 then o.tag % 2 ^ 32 else o.rseq.toNat,
                    low := ((s.lquay l).rmt.low o.req.dev o.quay o.job).toNat, itide := o.itide }
  s.sendPkt l 5 o.req.dev o.quay (48 + itemSize o.kind) (h.enc + o.item <<< 384)

def State.modOot (s : State) (l tag : Nat) (f : Oot → Oot) : State :=
  s.modLquay l (fun q => { q with rmt := { q.rmt with oot := mapIf (fun o => o.tag == tag) f q.rmt.oot } })

/-- Whether an item is for the line of an earlier item. -/
def Oot.sameLine (a b : Oot) : Bool := a.req.dev == b.req.dev && a.req.win == b.req.win && lineOf a.req.addr == lineOf b.req.addr

/-- Whether a withheld item may go now (R252, R259, R260). -/
def State.rmtReady (s : State) (l : Nat) (o : Oot) : Bool :=
  let r := (s.lquay l).rmt
  let earlier := r.oot.filter (fun x => decide (x.order < o.order) && x.kind != 1)
  if o.kind == 1 then !earlier.any (fun x => x.sameLine o)
  else
    s.hasBerth l .retained o.berth && !(o.kind == 2 && o.req.flag && earlier.any (fun x => x.job == o.job)) &&
    decide ((r.oot.filter (fun x => x.kind != 1 && x.st != .held && x.job == o.job && x.req.dev == o.req.dev && x.quay == o.quay)).length <
      (r.streams.get {} (o.job, o.req.dev, o.quay)).credit)

/-- An item whose retained copy cannot be reached ends INDETERMINATE (R312). -/
def State.rmtLost (s : State) (l : Nat) (o : Oot) : State :=
  let s1 := s.modLquay l (fun q => { q with rmt := { q.rmt with oot := q.rmt.oot.filter (fun x => x.tag != o.tag) } })
  (s1.berthSync l).cpAnswer l o.req.lane o.req.tag 5 0 false false

/-- Send an item again from its retained copy, whose berth is checked first: where the check fails the item ends INDETERMINATE (R251, R254,
R312). -/
def State.rmtAgain (s : State) (l : Nat) (o : Oot) : State :=
  let use := if o.kind == 1 then (s, true) else s.berthUse l .retained o.berth (.access 0 32)
  if use.2 then use.1.rmtSend l o true else use.1.rmtLost l o

/-- Send every withheld item that may go, oldest first. -/
def State.rmtPump (s : State) (l : Nat) : State :=
  foldS ((s.lquay l).rmt.oot.filter (fun o => o.st == .held)) (fun o s =>
    if !s.rmtReady l o then s else
    let k := (o.job, o.req.dev, o.quay)
    let st := (s.lquay l).rmt.streams.get {} k
    let o' := { o with st := .sent, itide := s.durTide, born := s.clock, rseq := if o.kind == 1 then 0 else st.next }
    let use := if o.kind == 1 then (s, true) else s.berthUse l .retained o.berth (.access 0 32)
    if !use.2 then use.1.rmtLost l o else
    let s1 := use.1.modLquay l (fun q => { q with rmt := { q.rmt with
      oot := mapIf (fun x => x.tag == o.tag) (fun _ => o') q.rmt.oot,
      streams := if o.kind == 1 then q.rmt.streams else q.rmt.streams.set k { st with next := st.next + 1 } } })
    s1.rmtSend l o' false) s

/-- A remote item ends for its requester (R270). -/
def State.rmtEnd (s : State) (l : Nat) (o : Oot) (status : Nat) (data : Line := 0) (poison : Bool := false) : State :=
  let s1 := s.modLquay l (fun q => { q with rmt := { q.rmt with oot := q.rmt.oot.filter (fun x => x.tag != o.tag) } })
  let s2 := if o.kind == 1 then s1 else s1.berthSync l
  s2.cpAnswer l o.req.lane o.req.tag status data poison (status == 0 && o.kind == 1)

/-- A berth that retains items of a kind and has room for one more: 25 write items or 128 atomic items share one (R308). Which of
several is the model's choice: the first. -/
def State.retainIn (s : State) (l kind : Nat) : Option Nat :=
  let q := s.lquay l
  let works := ((q.pools.live.filter (fun b => b.owner == .retained)).map (·.work) ++ (q.pools.queue.filter (fun b => b.owner == .retained)).map (·.work)).filter
    (fun w => w % 2 == b2n (kind == 3))
  works.find? (fun w => decide ((q.rmt.oot.filter (fun o => o.kind != 1 && o.berth == w)).length < (if kind == 3 then 128 else 25)))

/-- The 128 B lines of a retained item in its berth, 25 write items of 160 B or 128 atomic items of 32 B to a berth: the lines item `n` of the
berth touches, as they stand once it is in (R307, R308). -/
def State.retainPut (s : State) (l : Nat) (o : Oot) : State :=
  let mine := (s.lquay l).rmt.oot.filter (fun x => x.kind != 1 && x.berth == o.berth)
  let size := itemSize o.kind
  let all := pack (mine.map (fun x => (8 * size, x.item)))
  s.berthPut l .retained o.berth ((List.range (cdiv (size * mine.length) 128)).map (fun i => BitVec.ofNat 1024 (all >>> (1024 * i))))

/-- A remote request accepted at the compute port (R243, R252, R261, R262). DESIGN CHOICE, unsafe (log 125): a request through a window that is not
valid in this device's own table, through one of SCOPE 0 with no job active, with an offset that is no line's for a read or a write, or with the
reserved cache attribute, completes REFUSED at the source; the spec names no completion for it. -/
def State.rmtIssue (s : State) (l : Nat) (r : CpReq) (kind : Nat) : State :=
  let w := s.window r.win
  let job := if w.scope then 0 else s.job.tag
  let a := fun (s : State) (st : Nat) => s.cpAnswer l r.lane r.tag st 0 false false
  if r.dev == s.ident.device || r.dev == 0xFFFFF then a s 2
  else if s.isFenced r.dev then a s 3
  else if !w.valid || (!w.scope && !s.jobOn) then a s 2
  else if (kind != 3 && r.addr % 128 != 0) || (kind == 1 && r.attr == 3) then a s 2
  else if kind == 2 && r.poison then a s 4
  else
    let key : RrcLine := { job := job, dev := r.dev, win := r.win, off := r.addr, fmt := r.fmt, data := 0 }
    let hit := if kind == 1 && r.attr == 1 then (s.lquay l).rmt.rrc.find? (fun x => x.same key) else none
    let at_ : CntAttr := { priv := some r.priv, master := some r.master }
    match hit with
    | some x =>
      let e := s.sramRead l 1 x.key
      ((e.1.countL l 0x2E 1 at_).modLquay l (fun q => { q with rmt := { q.rmt with rrc := x :: q.rmt.rrc.filter (· ≠ x) } })).cpAnswer
        l r.lane r.tag 0 x.data e.2 true
    | none =>
      let s1 := if kind == 1 && r.attr == 1 then s.countL l 0x2F 1 at_ else s
      let shared := s.retainIn l kind
      let work := shared.getD (2 * (s.lquay l).rmt.nextTag + b2n (kind == 3))
      let s2 := (s1.countL l 0x09 1 at_).modLquay l (fun q =>
        let rm := if kind == 1 then q.rmt else
          q.rmt.invalidate (fun x => x.job == job && x.dev == r.dev && x.win == r.win && x.off == lineOf r.addr)
        { q with rmt := { rm with nextTag := rm.nextTag + 1, nextOrd := rm.nextOrd + 1,
                                  oot := rm.oot ++ [{ tag := rm.nextTag, req := r, kind := kind, quay := w.quay, job := job, gen := rm.gen, order := rm.nextOrd,
                                                       berth := work }] } })
      let s3 := if kind == 1 || shared.isSome then s2 else (s2.berthAlloc l 2 .retained work .wait).1
      let s4 := match (s3.lquay l).rmt.oot.getLast? with
        | some o => if kind == 1 then s3 else (s3.retainPut l o).berthSync l
        | none => s3
      s4.rmtPump l

/-- A remote item to a fenced device ends FENCED (R143). -/
def State.rmtFenced (s : State) (dev : Nat) : State :=
  foldS s.lquays (fun l s => foldS ((s.lquay l).rmt.oot.filter (fun o => o.req.dev == dev)) (fun o s => s.rmtEnd l o 3) s)
    (s.rrcDrop (fun x => x.dev == dev))

/-- RMT_ACK_TIMEOUT (R254): re-send what has waited RMT_ACK_T. -/
def State.rmtResend (s : State) (l : Nat) : State :=
  foldS ((s.lquay l).rmt.oot.filter (fun o => o.st == .sent && o.since != 0 && s.passed o.since (s.lpar l .rmtAckT))) (fun o s =>
    (s.modOot l o.tag (fun o => { o with since := 0 })).rmtAgain l o) s

/-- Items refused as stale go again once the epoch has come (R251). -/
def State.rmtEpoch (s : State) (l : Nat) : State :=
  foldS ((s.lquay l).rmt.oot.filter (fun o => match o.st with
    | .epoch e => decide (e ≤ s.job.epoch)
    | _ => false)) (fun o s => (s.modOot l o.tag (fun o => { o with st := .sent, since := 0 })).rmtAgain l o) s

/-- RMT_LIFE_EXPIRY (R254): the source gives up. -/
def State.rmtExpire (s : State) (l : Nat) : State :=
  foldS ((s.lquay l).rmt.oot.filter (fun o => o.st != .held && s.passed o.born (s.lpar l .rmtLifeT - s.lpar l .rmtAckT))) (fun o s =>
    s.rmtEnd l o (if o.kind == 1 then 6 else 5)) s

/-- What an answer's status does to its item (R251). -/
def State.rmtStatus (s : State) (l : Nat) (o : Oot) (status epoch : Nat) (data : Line) (poison : Bool) : State :=
  match status with
  | 0 | 1 => s.rmtEnd l o 0 data poison
  | 2 => if epoch ≤ s.job.epoch then (s.modOot l o.tag (fun o => { o with since := 0 })).rmtAgain l o
      else s.modOot l o.tag (fun o => { o with st := .epoch epoch })
  | 3 => ((s.countL l 0x19 1).modOot l o.tag (fun o => { o with since := 0 })).rmtAgain l o
  | 4 | 5 | 6 => s.rmtEnd l o 2
  | 7 => s.rmtEnd l o 4
  | 8 => s.rmtEnd l o 5
  | 9 => s.modOot l o.tag (fun o => { o with since := s.clock })
  | _ => s.pktDrop l

/-- The outstanding item an answer item belongs to. -/
def State.rmtFind (s : State) (l kind : Nat) (h : RHdr) (n : Nat) : Option Oot :=
  (s.lquay l).rmt.oot.find? (fun o => o.kind == kind && o.st != .held && o.req.dev == h.dst && o.quay == h.dstq &&
    o.job == h.job && (if kind == 1 then o.tag % 2 ^ 32 else o.rseq.toNat) == (h.rseq + n) % 2 ^ 32)

/-- The items of a reply from bit `pos` on: STATUS, data, trailer of each. -/
def replyItems (kind pkt : Nat) : Nat → Nat → List (Nat × Nat × Nat)
  | 0, _ => []
  | n + 1, pos =>
    let st := fld pkt (pos + 7) pos
    if kind == 1 then
      (if st == 0 then (st, fld pkt (pos + 1087) (pos + 64), fld pkt (pos + 1151) (pos + 1088)) :: replyItems kind pkt n (pos + 1152)
      else (st, 0, 0) :: replyItems kind pkt n (pos + 64))
    else if kind == 2 then (st, 0, 0) :: replyItems kind pkt n (pos + 64)
    else (st, fld pkt (pos + 127) (pos + 64), 0) :: replyItems kind pkt n (pos + 128)

/-- A reply or answer (R251, R261): `kind` is the request's. -/
def State.rmtReply (s : State) (l kind : Nat) (f : Frame) : State :=
  let h := RHdr.dec f.pkt
  if !crcOk 48 (f.pkt % 2 ^ 384) || h.nitem == 0 || 32 < h.nitem then s.pktDrop l
  else
    let k := (h.job, h.dst, h.dstq)
    let cred := fun (r : Rmt) => { r with streams := r.streams.set k { r.streams.get {} k with credit := h.low % 128 } }
    let s1 := if kind == 1 then s else s.modLquay l (fun q => { q with rmt := cred q.rmt })
    let s2 := foldS (replyItems kind f.pkt h.nitem 384).zipIdx (fun e s =>
      match s.rmtFind l kind h e.2 with
      | none => s.countL l 0x0D 1
      | some o =>
        let y := s.sramRead l 3 o.tag
        let s := y.1
        let x : Line := BitVec.ofNat 1024 e.1.2.1
        let poison := bitOf e.1.2.2 32 || y.2
        if kind == 1 && e.1.1 == 0 && fld e.1.2.2 31 0 != lineCrc x then s.rmtStatus l o 3 h.epoch 0 false
        else
          let fill := kind == 1 && e.1.1 == 0 && !poison && (o.req.attr == 1 || o.req.attr == 2) && o.gen == (s.lquay l).rmt.gen
          let y : RrcLine := { job := o.job, dev := o.req.dev, win := o.req.win, off := o.req.addr, fmt := o.req.fmt, data := x, fill := o.tag }
          let s' := if fill then s.modLquay l (fun q => { q with rmt := { q.rmt with rrc := rrcFill q.rmt.rrc y } }) else s
          s'.rmtStatus l o e.1.1 h.epoch x poison) s1
    s2.rmtPump l

/-! ## Stream records (R255, R256) -/

/-- Forward jumps since a tide (R38). -/
def State.jumpsSince (s : State) (t : Nat) : Nat := (s.tide.jumps.filter (fun j => decide (t < j.1))).foldl (fun a j => a + j.2) 0

def State.recOf (s : State) (l job dev quay : Nat) : Option RmtRec :=
  (s.lquay l).rmt.recs.find? (fun r => r.job == job && r.dev == dev && r.quay == quay)

/-- The 32 bytes of a record. -/
def RmtRec.bytes (r : RmtRec) : Nat :=
  pack [(20, r.dev), (4, r.quay), (8, 1), (16, r.job), (16, 0), (32, r.base.toNat),
    (64, r.applied.foldl (fun a d => a ||| 2 ^ d) 0), (64, r.ltouch), (32, 0)]

def State.recAddr (s : State) (l i : Nat) : Nat := s.lpar l .rmtTabBase + 32 * i

/-- The register file after record `i` is used: the record used longest ago that has nothing pending leaves a full file, and where every record in
it has something pending it stays as it is (R255). -/
def Rmt.filed (r : Rmt) (i : Nat) : List Nat :=
  let rest := r.file.filter (· ≠ i)
  let idle := fun (j : Nat) => !r.recs.any (fun x => x.idx == j && !x.pend.isEmpty)
  match (if rest.length < 1024 then none else rest.reverse.find? idle) with
  | some j => i :: rest.filter (· ≠ j)
  | none => if rest.length < 1024 then i :: rest else r.file

/-- Whether the register file has room for record `i` with an item pending: every one of 1,024 others has some otherwise. The item then waits in
the intake: DESIGN CHOICE (log 101). -/
def Rmt.fileRoom (r : Rmt) (i : Nat) : Bool :=
  r.file.contains i || decide (r.file.length < 1024) || r.file.any (fun j => !r.recs.any (fun x => x.idx == j && !x.pend.isEmpty))

/-- Put a record into the register file and the table. -/
def State.putRec (s : State) (l : Nat) (r : RmtRec) : State :=
  (s.modLquay l (fun q => { q with rmt := { q.rmt with recs := q.rmt.recs.filter (fun x => x.idx != r.idx) ++ [r], file := q.rmt.filed r.idx } })).ownWrite
    l (s.recAddr l r.idx) 32 r.bytes

/-- B moves by `n`: offsets shift. -/
def RmtRec.shift (r : RmtRec) (n : Nat) : RmtRec :=
  { r with base := r.base + BitVec.ofNat 32 n, applied := (r.applied.filter (fun d => decide (n ≤ d))).map (· - n) }

/-- B advances past every leading applied item; `n` bounds it. -/
def RmtRec.settle : Nat → RmtRec → RmtRec
  | 0, r => r
  | n + 1, r => if r.applied.contains 0 then (r.shift 1).settle n else r

/-- Mark an RSEQ applied. -/
def RmtRec.apply (r0 : RmtRec) (x : Seq) : RmtRec :=
  let r := { r0 with pend := r0.pend.filter (· ≠ x) }
  if Seq.later r.base x then r else
  RmtRec.settle 65 { r with applied := (x - r.base).toNat :: r.applied.filter (· ≠ (x - r.base).toNat) }

/-- Find a record, or make one in a free place of its bucket (R255). -/
def State.recMake (s : State) (l : Nat) (h : RHdr) : Option RmtRec :=
  match s.recOf l h.job h.src h.srcq with
  | some r => some r
  | none =>
    let b := Config.streamHash h.job h.src h.srcq % max (s.lpar l .rmtStreams / 8) 1
    match (List.range 8).find? (fun i => !(s.lquay l).rmt.recs.any (fun r => r.idx == 8 * b + i)) with
    | none => none
    | some i => some { idx := 8 * b + i, job := h.job, dev := h.src, quay := h.srcq, base := BitVec.ofNat 32 h.low, ltouch := 0 }

/-- STREAM_RECORD_FREE (R255). -/
def State.recFree (s : State) (l : Nat) : State :=
  let used := fun (r : RmtRec) => !r.pend.isEmpty || (s.lquay l).rmt.held.any (fun x => let h := RHdr.dec x.frame.pkt; h.job == r.job && h.src == r.dev && h.srcq == r.quay)
  let go := (s.lquay l).rmt.recs.filter (fun r => decide (r.ltouch + s.lpar l .rmtLifeT + s.jumpsSince r.ltouch < s.durTide) && !used r)
  foldS go (fun r s =>
    (s.modLquay l (fun q => { q with rmt := { q.rmt with recs := q.rmt.recs.filter (fun x => x.idx != r.idx), file := q.rmt.file.filter (· ≠ r.idx), reply := q.rmt.reply.filter (fun e => e.recI != r.idx) } })).ownWrite
      l (s.recAddr l r.idx) 32 0) s

/-- Write a reply-cache entry, evicting the earliest of a full cache (R257). -/
def State.replyPut (s : State) (l : Nat) (e : RcEnt) : State :=
  let c := (s.lquay l).rmt.reply
  let s1 := if 16384 ≤ c.length then (s.countL l 0x1B 1) else s
  s1.modLquay l (fun q => { q with rmt := { q.rmt with reply := (if 16384 ≤ c.length then c.drop 1 else c) ++ [e] } })

/-! ## Answers of the target -/

/-- Whether a stream has an item waiting on a hot line of the quay (R268). -/
def State.hotStream (s : State) (l : Nat) (h : RHdr) : Bool :=
  let is := fun (x : Src) => match x with
    | .remote b _ _ => let y := RHdr.dec b.toNat; y.job == h.job && y.src == h.src && y.srcq == h.srcq
    | _ => false
  (s.lquay l).rmt.comb.any (fun c => c.items.any (fun i => is i.src) || c.flushing.any (fun i => is i.src) || c.waiting.any (fun o => is o.src))

/-- Answer item `n` of a request (R249, R250, R268). -/
def State.rmtAnswer (s : State) (l : Nat) (h : RHdr) (n status : Nat) (data : Nat) (tr : Nat) : State :=
  let a : RHdr := { h with kind := h.kind + 8, resend := false, nitem := 1, epoch := s.job.epoch, rseq := (h.rseq + n) % 2 ^ 32,
                           low := if s.hotStream l h then s.lpar l .hotCredits else 64 }
  let body : Nat × Nat := match h.kind with
    | 1 => if status == 0 then (144, pack [(64, 0), (1024, data), (64, tr)]) else (8, status)
    | 2 => (8, status)
    | _ => (16, pack [(64, status), (64, data)])
  s.sendPkt l 6 h.src h.srcq (48 + body.1) (a.enc + body.2 <<< 384)

/-- What identifies an item among the operations: its header, number, and stream record with NORET. -/
def rmtSrc (f : Frame) (n tagged : Nat) : Src := .remote (BitVec.ofNat 384 f.pkt) n tagged

/-- Write the reply-cache entries of the returning atomics just merged into a combining entry, each once (R257, R266). -/
def State.cacheMerged (s : State) (l addr : Nat) : State :=
  match s.combOf l addr with
  | none => s
  | some c =>
    let s1 := s.modComb l c.addr (fun c => { c with items := c.items.map (fun i => { i with cached := true }) })
    foldS (c.items.filter (fun i => !i.cached)) (fun i s => match i.src with
      | .remote b n t =>
        let h := RHdr.dec b.toNat
        if h.kind == 3 && t % 2 == 0 && i.status == 0 then s.replyPut l { recI := t / 2, rseq := BitVec.ofNat 32 (h.rseq + n), status := 0, old := i.old } else s
      | _ => s) s1

/-! ## Admission (R247, R256) -/

/-- The memory operation of a write or atomic item. -/
def itemOp (kind it : Nat) : OpKind :=
  if kind == 2 then .write (BitVec.ofNat 128 (fld it 191 64)) (BitVec.ofNat 1024 (fld it 1215 192)) (bitOf it 1248)
  else .atomic (fld it 43 40) (byt it 6 6) (bitOf it 44) (byt it 15 8) (byt it 23 16)

/-- Hold an item in the intake under credits: a frame's credits are kept once. -/
def State.rmtHold (s : State) (l : Nat) (f : Frame) (n : Nat) (epoch : Bool) : State :=
  let s1 := if (s.lquay l).rmt.held.any (fun x => x.frame == f) then s else s.rxTake l f
  s1.modLquay l (fun q => { q with rmt := { q.rmt with held := q.rmt.held ++ [{ frame := f, num := n, since := s.clock, epoch := epoch }] } })

/-- Apply an admitted item: it joins the operations of its quay (R248). -/
def State.rmtApply (s : State) (l : Nat) (f : Frame) (n : Nat) (r : RmtRec) (addr : Nat) : State :=
  let h := RHdr.dec f.pkt
  let it := reqItem f.pkt h.kind n
  let k := itemOp h.kind it
  let noret := h.kind == 3 && bitOf it 44
  let s1 := s.putRec l { r with pend := BitVec.ofNat 32 (h.rseq + n) :: r.pend }
  (s1.writeReq l (rmtSrc f n (2 * r.idx + b2n noret)) k addr false 0).cacheMerged l addr

/-- Whether an item of a request is the one with `x` of a stream. -/
def Src.isItem (h : RHdr) (x : Seq) : Src → Bool
  | .remote b m _ => let y := RHdr.dec b.toNat; y.job == h.job && y.src == h.src && y.srcq == h.srcq && BitVec.ofNat 32 (y.rseq + m) == x
  | _ => false

/-- A copy of an item in flight: where the original is merged it joins it, to be answered with it; else it waits in the intake and
finds the outcome (R256, R267, R271). -/
def State.rmtCopy (s : State) (l : Nat) (f : Frame) (n addr tagged : Nat) (x : Seq) : State :=
  let h := RHdr.dec f.pkt
  let mine := fun (is : List CombItem) => is.find? (fun i => i.src.isItem h x)
  let dup := fun (i : CombItem) => { i with src := rmtSrc f n tagged, status := if i.status == 4 then 4 else 1, cached := true }
  match s.combOf l addr with
  | none => s.rmtHold l f n false
  | some c =>
    match mine c.items, mine c.flushing with
    | some i, _ => s.modComb l c.addr (fun c => { c with items := c.items ++ [dup i] })
    | none, some i => s.modComb l c.addr (fun c => { c with flushing := c.flushing ++ [dup i] })
    | none, none => s.rmtHold l f n false

/-- Whether a write to a protected line has to wait in the intake for a step to open; where the combining buffer holds its line it is merged
(R28, R271). -/
def State.rmtShut (s : State) (l kind addr : Nat) : Bool := kind == 2 && s.deltaPath l addr && !s.stepOpen && (s.combOf l addr).isNone

/-- Admit a write or atomic item (R256). A reply-cache entry that cannot be corrected says no OLD: the copy is answered INDETERMINATE, as where none
is found (R257, R336). -/
def State.rmtAdmit (s : State) (l : Nat) (f : Frame) (n addr : Nat) : State :=
  let h := RHdr.dec f.pkt
  let it := reqItem f.pkt h.kind n
  let x : Seq := BitVec.ofNat 32 (h.rseq + n)
  let low : Seq := BitVec.ofNat 32 h.low
  let returning := h.kind == 3 && !bitOf it 44
  if h.itide + s.lpar l .rmtLifeT + s.jumpsSince h.itide < s.durTide + 128 then s.countL l 0x1A 1
  else match s.recMake l h with
    | none => s.rmtAnswer l h n 9 0 0
    | some r0 =>
      let r1 := { r0 with ltouch := s.durTide }
      let r := if Seq.later low r1.base then RmtRec.settle 65 (r1.shift (low - r1.base).toNat) else r1
      let s1 := (s.putRec l r).modLquay l (fun q => { q with rmt := { q.rmt with reply := q.rmt.reply.filter (fun e => !(e.recI == r.idx && Seq.later low e.rseq)) } })
      let d := (x - r.base).toNat
      if 2 ^ 31 ≤ d || r.applied.contains d then
        if returning then
          match (s1.lquay l).rmt.reply.find? (fun e => e.recI == r.idx && e.rseq == x) with
          | some e =>
            let y := s1.sramRead l 2 (e.recI * 2 ^ 32 + e.rseq.toNat)
            if y.2 then y.1.rmtAnswer l h n 8 0 0 else y.1.rmtAnswer l h n 1 e.old 0
          | none => s1.rmtAnswer l h n 8 0 0
        else s1.rmtAnswer l h n 1 0 0
      else if r.pend.contains x then s1.rmtCopy l f n addr (2 * r.idx + b2n (!returning)) x
      else if 64 ≤ d then
        let s2 := s1.pktDrop l
        if r.errLogged then s2 else (s2.putRec l { r with errLogged := true }).evL l .rmtSeq []
      else if (d != 0 && !(((s1.regionOf l addr).map (·.ord)).getD false)) || s1.rmtShut l h.kind addr || !(s1.lquay l).rmt.fileRoom r.idx then
        s1.rmtHold l f n false
      else s1.rmtApply l f n r addr

/-- Item `n` of a request past the job gate and the epoch (R247). -/
def State.rmtItem (s : State) (l : Nat) (f : Frame) (n : Nat) : State :=
  let h := RHdr.dec f.pkt
  let w := s.window h.win
  let it := reqItem f.pkt h.kind n
  let off := it % 2 ^ 40
  let bytes := if h.kind == 3 then atomBytes (byt it 6 6) else 128
  let inWin := (List.range h.nitem).all (fun i => let o := reqItem f.pkt h.kind i % 2 ^ 40; decide (o + (if h.kind == 3 then atomBytes (byt (reqItem f.pkt h.kind i) 6 6) else 128) ≤ w.size * 4096))
  let addr := w.base * 4096 + off
  let k := s.kindOf l addr
  let crc := if h.kind == 2 then fld it 1247 1216 == lineCrc (BitVec.ofNat 1024 (fld it 1215 192)) else if h.kind == 3 then crcOk 32 it else true
  if !s.winOpen w h.job || w.quay != l || !bitOf w.perm (h.kind - 1) || !inWin then s.rmtAnswer l h n 4 0 0
  else if !crc then s.rmtAnswer l h n 3 0 0
  else if h.kind == 1 then s.readReq l (rmtSrc f n 0) (fld it 43 40) addr false 0
  else if (h.kind == 2 && k == 4) || (h.kind == 3 && (k != 0 || !atomOk (fld it 43 40) (byt it 6 6) (bitOf it 44))) then s.rmtAnswer l h n 5 0 0
  else if (h.kind == 3 && off % bytes != 0) || (h.kind == 2 && off % 128 != 0) then s.rmtAnswer l h n 6 0 0
  else if h.kind == 2 && bitOf it 1248 && s.deltaPath l addr then s.rmtAnswer l h n 7 0 0
  else s.rmtAdmit l f n addr

/-- The epoch checks of an item. -/
def State.rmtEpochGate (s : State) (l : Nat) (f : Frame) (n : Nat) : State :=
  let h := RHdr.dec f.pkt
  if h.epoch < s.job.epoch then s.rmtAnswer l h n 2 0 0
  else if s.job.epoch < h.epoch then s.rmtHold l f n true
  else s.rmtItem l f n

/-- Whether a request packet is well formed: header check, items, length. -/
def rmtReqOk (f : Frame) (kind : Nat) : Bool :=
  let h := RHdr.dec f.pkt
  crcOk 48 (f.pkt % 2 ^ 384) && h.kind == kind && decide (1 ≤ h.nitem) && decide (h.nitem ≤ 32) && f.len == 48 + h.nitem * itemSize kind

/-- The stream of a held item. -/
def RHeld.stream (x : RHeld) : Nat × Nat × Nat :=
  let h := RHdr.dec x.frame.pkt
  (h.job, h.src, h.srcq)

/-- The item whose turn it is among those that may go: of the stream served longest ago the earliest held (R268). -/
def Rmt.nextTurn (r : Rmt) (ready : List RHeld) : Option RHeld :=
  let turn := fun (x : RHeld) => r.turns.findIdx (· == x.stream)
  ready.foldl (fun best x => match best with
    | none => some x
    | some b => if turn b < turn x then some x else best) none

/-- Whether an item in the intake may go: its epoch has come, its turn in the stream, the copy of it that is in flight has ended, a step is open
for it, and the register file has room (R28, R247, R255, R258). An item of a device fenced since goes to its refusal (R271). -/
def State.heldReady? (s : State) (l : Nat) (x : RHeld) : Bool :=
  let h := RHdr.dec x.frame.pkt
  let n : Seq := BitVec.ofNat 32 (h.rseq + x.num)
  let addr := (s.window h.win).base * 4096 + reqItem x.frame.pkt h.kind x.num % 2 ^ 40
  if s.isFenced h.src then true
  else if x.epoch then decide (h.epoch ≤ s.job.epoch)
  else match s.recOf l h.job h.src h.srcq with
    | none => true
    | some r =>
      let d := (n - r.base).toNat
      if 2 ^ 31 ≤ d || r.applied.contains d then true
      else if r.pend.contains n then false
      else (d == 0 || ((s.regionOf l addr).map (·.ord)).getD false) && !s.rmtShut l h.kind addr && (s.lquay l).rmt.fileRoom r.idx

/-- Take items from the intake, one of one stream, then the next stream's (R268). `n` bounds them. -/
def State.rmtRetry (s : State) (l : Nat) : Nat → State
  | 0 => s
  | k + 1 =>
    match (s.lquay l).rmt.nextTurn ((s.lquay l).rmt.held.filter (fun x => s.heldReady? l x)) with
    | none => s
    | some x =>
      let src := (RHdr.dec x.frame.pkt).src
      let s1 := s.modLquay l (fun q => { q with rmt := { q.rmt with
        held := removeFirst (· == x) q.rmt.held, turns := x.stream :: q.rmt.turns.filter (· ≠ x.stream) } })
      let s2 := if s.isFenced src then s1.fenceNotice l src
        else if x.epoch then s1.rmtEpochGate l x.frame x.num else s1.rmtItem l x.frame x.num
      (if (s2.lquay l).rmt.held.any (fun y => y.frame == x.frame) then s2 else s2.rxReturn l x.frame).rmtRetry l k

/-- Items of a request packet at the target (R247): `pick` says which. They enter the intake, from which every stream's are taken in turn
(R268). The tag 0x0000 on a window that is not of SCOPE 1 is an unknown tag. -/
def State.rmtRequest (s : State) (l : Nat) (f : Frame) (kind : Nat) (pick : List Nat) : State :=
  let h := RHdr.dec f.pkt
  if !rmtReqOk f kind then s.pktDrop l
  else
    let go := fun (s : State) =>
      let s1 := foldS pick (fun n s => s.rmtHold l f n true) s
      s1.rmtRetry l (2 * (s1.lquay l).rmt.held.length)
    let w := s.window h.win
    if h.job == 0 && w.valid && w.scope then (if s.isFenced h.src then s.fenceNotice l h.src else if s.quiet then s.pktDrop l else go s)
    else s.jobPkt l h.job h.src f go

/-! ## Ends of operations -/

/-- An item's operation has ended (R251, R256, R445). -/
def State.rmtFin (s : State) (l : Nat) (b : BitVec 384) (n t : Nat) (fin : Fin) : State :=
  let h := RHdr.dec b.toNat
  if h.kind == 1 then
    if fin.status == 0 then s.rmtAnswer l h n 0 fin.data.toNat (trailer fin.data fin.poison) else s.rmtAnswer l h n 5 0 0
  else
    let x : Seq := BitVec.ofNat 32 (h.rseq + n)
    match s.recOf l h.job h.src h.srcq with
    | none => s
    | some r =>
      if fin.status != 0 then
        (s.putRec l { r with pend := r.pend.filter (· ≠ x) }).rmtAnswer l h n (if fin.status == 4 then 7 else 5) 0 0
      else
        let old := if t % 2 == 0 then fin.data.toNat % 2 ^ 64 else 0
        let s1 := s.putRec l (r.apply x)
        let s2 := if h.kind == 3 && t % 2 == 0 then s1.replyPut l { recI := r.idx, rseq := x, status := 0, old := old } else s1
        s2.rmtAnswer l h n 0 (if h.kind == 3 then old else 0) 0

/-! ## The combining buffer (R266, R267) -/

/-- Entries whose line has no earlier operation left: read it; a protected line that is not sound is rebuilt first (R266). -/
def State.combReady (s : State) (l : Nat) : State :=
  foldS ((s.lquay l).rmt.comb.filter (fun c => !c.ready && !(s.lquay l).ops.any (fun o => (s.opLines l o).contains c.addr && !c.waiting.any (fun w => w.src == .comb && w.id == o.id)))) (fun c s =>
    let s := if s.deltaPath l c.addr then s.shadowData l c.addr else s
    if s.deltaPath l c.addr && (s.unsalvaged l c.addr || !s.oldSound l c.addr) && !(s.lquay l).lostLines.contains c.addr then s.demandSalvage l c.addr
    else
      let c0 := { c with ready := true, value := s.getLine l c.addr, poison := !s.getOk l c.addr }
      s.modComb l c.addr (fun _ => c0)) s

/-- Entries take what waits for them, as far as their berths have room. -/
def State.combWaits (s : State) (l : Nat) : State :=
  foldS ((s.lquay l).rmt.comb.filter (fun c => c.ready && !c.waiting.isEmpty)) (fun c s => (s.combDrain l c.addr c.waiting.length).cacheMerged l c.addr) s

/-- An entry whose write-back has failed: what was merged since is merged again on the line as it stands, and nothing of what failed
(R267, R443). -/
def Comb.redo (c : Comb) (v : Line) (poison : Bool) : Comb :=
  let one := fun (c : Comb) (i : CombItem) =>
    let d := combItem c 0 { id := 0, src := i.src, kind := i.kind, addr := i.addr, stage := .queued }
    if i.status == 1 then { c with items := c.items ++ [i] } else { d with items := d.items.map (fun x => { x with cached := true }) }
  { c.items.foldl one { c with value := v, poison := poison, items := [] } with first := c.first, last := c.last }

/-- Write an entry back (R267); a poisoned one of a protected line ends so, with nothing written (R333). -/
def State.combWrite (s : State) (l : Nat) (c : Comb) : State :=
  if c.items.isEmpty || !c.flushing.isEmpty || !c.ready then s else
  let y := s.sramRead l 4 c.addr
  (y.1.modComb l c.addr (fun c => { c with flushing := c.items, items := [], first := none })).opSubmit l .comb
    (.write fullMask c.value (c.poison || y.2)) c.addr false 0

/-- COMB_FLUSH: entries whose first merge is COMB_FLUSH_T old. -/
def State.combFlush (s : State) (l : Nat) : State :=
  foldS ((s.lquay l).rmt.comb.filter (fun c => c.first.any (fun t => s.passed t (s.lpar l .combFlushT)))) (fun c s => s.combWrite l c) s

/-- Entries whose berth is full write back at once (R267). -/
def State.combFull (s : State) (l : Nat) : State :=
  foldS ((s.lquay l).rmt.comb.filter (·.full)) (fun c s => s.combWrite l c) s

/-- The write-back has ended: its items are answered (R267). -/
def State.combFin (s : State) (l addr status : Nat) : State :=
  match s.combOf l addr with
  | none => s
  | some c =>
    let s0 := s.modComb l c.addr (fun c => { c with flushing := [], last := s.clock })
    let s1 := if status == 0 then s0 else s0.modComb l c.addr (fun c => c.redo (s.getLine l c.addr) (!s.getOk l c.addr))
    foldS c.flushing (fun i s => match i.src with
      | .remote b n t =>
        let h := RHdr.dec b.toNat
        let x : Seq := BitVec.ofNat 32 (h.rseq + n)
        match s.recOf l h.job h.src h.srcq with
        | none => s
        | some r =>
          if i.status == 1 && status == 0 then s.rmtAnswer l h n 1 (if t % 2 == 0 then i.old else 0) 0
          else if status != 0 || i.status == 4 then
            (s.putRec l { r with pend := r.pend.filter (· ≠ x) }).rmtAnswer l h n (if i.status == 4 || status == 4 then 7 else 5) 0 0
          else (s.putRec l (r.apply x)).rmtAnswer l h n 0 (if h.kind == 3 && t % 2 == 0 then i.old else 0) 0
      | src =>
        let d := match src, i.kind with
          | .coll .., .write _ x p => (x, p)
          | _, _ => (0, false)
        s.outcome l src i.addr (if status == 0 then i.status else 1) d.1 d.2 false) s1

/-- COMB_IDLE: entries with no merge for COMB_IDLE_T and nothing pending are released. -/
def State.combIdle (s : State) (l : Nat) : State :=
  foldS ((s.lquay l).rmt.comb.filter (fun c => c.ready && c.items.isEmpty && c.flushing.isEmpty && c.waiting.isEmpty && s.passed c.last (s.lpar l .combIdleT)))
    (fun c s => (s.modLquay l (fun q => { q with rmt := { q.rmt with comb := q.rmt.comb.filter (fun x => x.addr != c.addr) } })).berthFreeWork l .combine c.addr) s

/-- Everything of remote memory that can go on by itself on a quay. -/
def State.rmtGo (s : State) (l : Nat) : State :=
  ((((((s.combReady l).combWaits l).combFull l).rmtRetry l (2 * (s.lquay l).rmt.held.length)).rmtEpoch l).rmtPump l)

/-- The stream table after a relief: records as memory holds them; caches, merges and outstanding items are gone (R164, R271). -/
def State.rmtRelief (s : State) (l : Nat) : State :=
  let n := s.lpar l .rmtStreams
  let base := s.lpar l .rmtTabBase
  let used := ((s.mem.filter (fun c => memKey l base ≤ c.1 && c.1 < memKey l base + 32 * n && (c.1 - memKey l base) % 32 == 3)).map (fun c => (c.1 - memKey l base) / 32))
  let recs := used.filterMap (fun i =>
    let v := s.readB l (base + 32 * i) 32
    if byt v 3 3 == 1 then some ({ idx := i, job := byt v 5 4, dev := fld v 19 0, quay := fld v 23 20, base := BitVec.ofNat 32 (byt v 11 8),
                                   applied := (List.range 64).filter (fun d => (byt v 19 12).testBit d), ltouch := byt v 27 20 } : RmtRec) else none)
  s.modLquay l (fun q => { q with rmt := { recs := recs, gen := q.rmt.gen + 1 } })

end Sys2Proof.Machine
end

