-- ==== Sys2Proof/Machine/Member.lean ====
section
/-! DEFINITION. Membership and jobs (R141 to R176, R495): verdicts, quiescence, the job image, joins, the start-up sequence and
teardown. -/

namespace Sys2Proof.Machine

/-! ## Quiescence (R146) -/

/-- The harbour becomes quiescent: FENCED_SELF with its cause, 1 a verdict or fence notice, 2 FAIL_STOP_IN (R146, R464); what
waits at the peer ports but fence notices is not sent. -/
def State.goQuiet (s : State) (cause : Nat) : State :=
  if s.quiet || !s.jobOn then s else
  let s1 := State.evH { s with job := { s.job with quiescent := some s.tide.now } } .fencedSelf [(8, cause)]
  foldS (List.range s.fit.nActive) (fun l s => s.peerPump l) s1

/-- A fence notice that names this device (R144). -/
def State.noticeIn (s : State) (f : Frame) : State :=
  if s.jobGate (fld f.pkt 31 16) == .active && fld f.pkt 115 96 == s.ident.device then s.goQuiet 1 else s

/-! ## Verdicts (R141 to R143, R161) -/

/-- The places of a device: its ranks in the roster, and its places in the roster's convoy entries. -/
def State.placesOf (s : State) (dev : Nat) : List (Nat × Nat) :=
  ((List.range s.job.roster.length).filter (fun r => (s.job.roster.getD r (0xFFFFF, 0)).1 == dev)).map (fun r => (0, r)) ++
  s.job.rconv.zipIdx.flatMap (fun e =>
    ((List.range e.1.mem.length).filter (fun x => e.1.mem.getD x 0xFFFFF == dev)).map (fun x => (e.2 + 1, x)))

/-- Give a place to a device, or leave it vacant. -/
def State.setPlace (s : State) (dev : Nat) (p : Nat × Nat) : State :=
  if p.1 == 0 then { s with job := { s.job with roster := s.job.roster.zipIdx.map (fun e => if e.2 == p.2 then (dev, e.1.2) else e.1) } }
  else { s with job := { s.job with rconv := s.job.rconv.zipIdx.map (fun e =>
    if e.2 + 1 == p.1 then { e.1 with mem := e.1.mem.zipIdx.map (fun y => if y.2 == p.2 then dev else y.1) } else e.1) } }

/-- A position of one of this device's convoys passes to a device, or becomes vacant; its UID is registered, and the streams to and from
it start anew (R81, R143, R171). -/
def State.setMember (s : State) (dev uid c x : Nat) : State :=
  let s1 := s.setHw (0x4004 + 512 * c + 4 * x) dev
  let vac := s.job.vacant.filter (· ≠ (c, x))
  let s2 := { s1 with job := { s1.job with vacant := if dev == 0xFFFFF then (c, x) :: vac else vac } }
  if dev == 0xFFFFF then s2 else (s2.newStreams dev).regUid c x uid

/-- This device takes a place in a roster convoy: the placement sets MEMBER, POS and VALID of its entry, its UID is registered for the
position, and salvage of it is due, from a clear map (R143, R151, R158, R171). -/
def State.takePosition (s : State) (uid i x : Nat) : State :=
  match s.job.rconv[i]? with
  | none => s
  | some r =>
    let s1 := foldS r.mem.zipIdx (fun e s => s.setHw (0x4004 + 512 * r.cidx + 4 * e.2) e.1) s
    let w := s1.hw (0x4000 + 512 * r.cidx)
    let s2 := s1.setHw (0x4000 + 512 * r.cidx) (setFld (setFld w 31 31 1) 22 17 x)
    (foldS s2.lquays (fun l (s : State) => s.mapClear l r.cidx) ({ s2 with salv := s2.salv ++ [{ convoy := r.cidx, pos := x, started := false }] } : State)).regUid r.cidx x uid

/-- This device's part of stage 7 of R143 when it is the standby of these places. -/
def State.takePlaces (s : State) (standby uid : Nat) (places : List (Nat × Nat)) : State :=
  if standby == s.ident.device && standby != 0xFFFFF then
    foldS (places.filter (fun p => p.1 != 0)) (fun p s => s.takePosition uid (p.1 - 1) p.2) s
  else s

/-- The convoy positions among the places of a device. -/
def State.convoyPlaces (s : State) (places : List (Nat × Nat)) : List (Nat × Nat) :=
  (places.filter (fun p => p.1 != 0)).filterMap (fun p => (s.job.rconv[p.1 - 1]?).map (fun r => (r.cidx, p.2)))

/-- Stage 2 of R143 on the places of a device; the standby learns with them which pieces stand-ins keep (R166). -/
def State.passPlaces (s : State) (dev standby uid : Nat) (places : List (Nat × Nat)) : State :=
  let own := s.convoys.flatMap (fun c => ((List.range c.n).filter (fun x => c.dev x == dev || (c.dev x == 0xFFFFF &&
    s.job.left.contains (dev, 0x100 + c.idx, x)))).map (fun x => (c.idx, x)))
  let s1 := foldS places (fun p s => s.setPlace standby p) s
  let s2 := foldS own (fun e s => s.setMember standby uid e.1 e.2) s1
  let all := (own ++ (if standby == s.ident.device then s.convoyPlaces places else [])).eraseDups
  let gone := places.map (fun p => (dev, p.1, p.2)) ++ own.map (fun e => (dev, 0x100 + e.1, e.2))
  { s2 with job := { s2.job with
    displaced := s2.job.displaced.filter (fun e => e.1 != dev),
    standIns := (s2.job.displaced.filter (fun e => e.1 == dev)).flatMap (fun e => all.map (fun y => (y.1, y.2, e.2))) ++ s2.job.standIns,
    left := if standby == 0xFFFFF then gone ++ s2.job.left else s2.job.left.filter (fun e => !gone.contains e) } }

/-- The places a FAIL of a device left vacant, as `passPlaces` takes them. -/
def State.leftPlaces (s : State) (dev : Nat) : List (Nat × Nat) :=
  (s.job.left.filter (fun e => e.1 == dev && decide (e.2.1 < 0x100))).map (·.2)

/-- The passes of a position that a device helps, with the roles it helps them with. -/
def State.passesWith (s : State) (l dev : Nat) : List (Pass × List Nat) :=
  ((s.lquay l).salv.passes.map (fun p => (p, p.helpers.filter (fun r => s.helperDev (s.convoy p.convoy) l p.stripe r == dev)))).filter (fun e => !e.2.isEmpty)

/-- Freezes a fenced device held end, its passes too, the passes it helped are repeated without it, and resets wait for it no more (R153,
R159). `hit`: the passes of this device that it helped. -/
def State.salvFenced (s : State) (l dev : Nat) (hit : List (Pass × List Nat)) : State :=
  let s1 := foldS ((s.lquay l).conv.frozen.filter (fun f => f.by_ == dev)) (fun f s => s.endFreeze l (· == f)) s
  let s2 := s1.modLquay l (fun q => { q with salv := { q.salv with passes := q.salv.passes.filter (fun p => p.home != dev) },
                                             conv := { q.conv with passWait := q.conv.passWait.filter (fun m => m.home != dev),
                                                                   parts := q.conv.parts.filter (fun x => x.msg.home != dev) } })
  (foldS (hit.filter (fun e => e.1.home == s.ident.device)) (fun e s => s.passAgain l e.1 e.2) s2).resetFenced l dev

/-- Whether a collective's group holds a device. -/
def State.collWith (s : State) (dev : Nat) (c : Coll) : Bool :=
  ((s.groupRanks (s.group c.l.gid)) ++ c.ranks).any (fun r => s.rankDev r == dev)

/-- A convoy has lost a member: every step not moored is undone there by its snapshots, those that abort now included (R127). -/
def State.fencedSteps (s : State) (cs : List Nat) : State :=
  let all := s.lquays.flatMap (fun l => cs.map (fun c => (l, c)))
  { s with steps := { s.steps with recs := s.steps.recs.map (fun r =>
    if r.state == .aborting then { r with fencedIn := (r.fencedIn ++ cs).eraseDups, restore := (r.restore ++ all).eraseDups }
    else { r with fencedIn := (r.fencedIn ++ cs).eraseDups }) } }

/-- A new standby of a device that a verdict had placed starts salvage over (R158). DESIGN CHOICE (log 102): it does so whether or not that device
had finished its own, which no message tells; `placed` are those placed before this verdict. A generator's state is not salvaged (R7, R161). -/
def State.salvRestart (s : State) (placed : List Nat) (failed standby : Nat) : State :=
  if placed.contains failed && failed != standby && standby == s.ident.device && !s.ident.gen then s.evH .salvageRestart [] else s

/-- A FAIL verdict, stage by stage in the order of R143, a fenced device named STANDBY again leaving the fenced set (R146, log 78); one that fences a generator performs stages 1 to 4 and 7 only (R7, R161). -/
def State.verdictFail (s : State) (failed standby uid : Nat) (gen : Bool) : State :=
  let old := s.job.epoch
  let e := (old + 1) % 2 ^ 32
  let s0 := { s with job := { s.job with epoch := e, fenced := (s.job.fenced.del standby).set failed e,
                                         placed := if standby == 0xFFFFF then s.job.placed else standby :: s.job.placed } }
  let s1 := s0.ringCast 0 1 (.fence failed)
  let cs := (s1.convoys.flatMap (fun c => ((List.range c.n).filter (fun x => c.dev x == failed)).map (fun x => (c.idx, x))))
  let places := s1.placesOf failed
  let colls := (s1.coll.run.filter (s1.collWith failed)).map (·.l.cseq)
  let hit := s1.lquays.map (fun l => (l, s1.passesWith l failed))
  let s2 := s1.passPlaces failed standby uid places
  let s3 := foldS colls (fun k s => s.abortColl k 1) s2
  let s4 := (s3.rmtFenced failed).rrcDrop (fun x => x.dev == failed)
  let s5 := if gen then s4 else foldS hit (fun e s => ((s.sealTo e.1 failed).anchorFenced e.1 failed).salvFenced e.1 failed e.2) s4
  let s6 := if gen || failed == s.ident.device then s5 else foldS cs (fun e s => s.sendRelays (s.convoy e.1) e.2) (s5.fencedSteps (cs.map (·.1)).eraseDups)
  let s7 := if failed == s.ident.device then s6.goQuiet 1 else s6.takePlaces standby uid places
  let s8 := if gen && standby == s.ident.device && s.ident.gen then s7.refrAskAll else s7
  let s9 := s8.salvRestart s.job.placed failed standby
  if gen then s9 else s9.evH .verdictApplied [(20, failed), (20, standby), (32, old), (32, e)]

/-- The places a replaced device holds through a PLACE verdict naming it with its UID, which salvage fills: at the device itself those of its
roster positions it is not salvaging yet (R171). -/
def State.ownReplaced (s : State) (standby uid : Nat) : List (Nat × Nat) :=
  if !s.job.locker || standby != s.ident.device || uid != s.ident.uid then [] else
  (s.placesOf standby).filter (fun p => p.1 != 0 && (s.job.rconv[p.1 - 1]?).any (fun r => !s.salvaging r.cidx))

/-- A PLACE verdict: stages 1, 2 and 7. A position whose device was replaced passes to the device that joined for it, where the verdict
names its UID (R171). Remote-read lines of the fenced device go (R262), and a standby generator asks for a full refresh (R161). -/
def State.verdictPlace (s : State) (failed standby uid : Nat) : State :=
  let e := (s.job.epoch + 1) % 2 ^ 32
  let s1 := { s with job := { s.job with epoch := e, fenced := if failed == standby then s.job.fenced.del standby else (s.job.fenced.del standby).set failed e,
                                         placed := standby :: s.job.placed } }
  let rep := s1.job.replaced.filter (fun p => s1.job.joins.any (fun j => j.convoy == p.1 && j.pos == p.2 && j.dev == standby && j.uid == uid))
  let s2 := foldS rep (fun p s => State.setMember { s with job := { s.job with replaced := s.job.replaced.filter (· ≠ p) } } standby uid p.1 p.2) s1
  let places := s2.leftPlaces failed
  let s3 := ((s2.passPlaces failed standby uid places).takePlaces standby uid (s2.ownReplaced standby uid ++ places)).rrcDrop (fun x => x.dev == failed)
  let s4 := s3.salvRestart s.job.placed failed standby
  if standby == s.ident.device && s.ident.gen then s4.refrAskAll else s4

/-- A verdict manifest whose fields break R141: a row that is neither FAIL nor PLACE, a reserved field, an EFFECT, or no device. -/
def verdictBad (m : Nat) : Bool :=
  let vk := fld m 259 256
  !(vk == 1 || vk == 2) || fld m 263 260 != 0 || fld m 271 265 != 0 || byt m 35 34 != 0 || fld m 343 340 != 0 || fld m 367 364 != 0 ||
    byt m 47 46 != 0 || byt m 119 56 != 0 || manEffect m != 0 || fld m 339 320 == 0xFFFFF || (vk == 2 && fld m 363 344 == 0xFFFFF)

/-- A verdict is applied (R143), and lighter copies that waited for its epoch are sent again (R84); one that comes before the roster is kept for it too. -/
def State.applyVerdict (s : State) (m : Nat) : State :=
  let failed := fld m 339 320
  let standby := fld m 363 344
  let uid := byt m 55 48
  let fail := fld m 259 256 == 1
  let s1 := if s.job.roster.isEmpty then { s with job := { s.job with verdicts :=
    s.job.verdicts ++ [{ fail := fail, failed := failed, standby := standby, uid := uid }] } } else s
  let s2 := if fail then s1.verdictFail failed standby uid (bitOf (byt m 33 33) 0) else s1.verdictPlace failed standby uid
  foldS s2.lquays (fun l s => s.resendEpoch l) s2

/-- A verdict manifest past the common checks (R141, R142). -/
def State.manVerdict (s : State) (m : Nat) : ManOut :=
  let ep := manEpoch m
  if verdictBad m then .bad s
  else if ep < s.job.epoch then .done (s.countH 0x12)
  else if s.job.epoch < ep then .done ((s.evH .verdictGap []).goQuiet 1)
  else if byt m 39 36 != (ep + 1) % 2 ^ 32 then .bad s
  else .done (s.applyVerdict m)

/-! ## The job image (R168 to R170) -/

/-- Ask a device for a piece. Image requests and pieces go on the channels of remote requests and answers, from logical quay 0 (log 9). -/
def State.imgSend (s : State) (dev piece : Nat) : State :=
  s.sendTx 0 5 (.imgReq dev { src := s.ident.device, job := s.job.tag, epoch := s.job.epoch, piece := piece, data := 0 })

/-- Whether this device holds the image itself. DESIGN CHOICE (log 104): it is the device ROOTDEV names; FLAGS.ROOT is not read, so the two need
not agree. -/
def State.imgRoot (s : State) : Bool := s.job.image.rootdev == s.ident.device

/-- A piece, where it is held. -/
def State.imgPiece (s : State) (p : Nat) : Option Nat :=
  if s.imgRoot then (if p < s.job.image.npieces then some (s.readB 0 (s.job.image.addr + 65536 * p) 65536) else none)
  else s.job.image.have_.find p

/-- The parent a piece is first asked of, by its number (R169). -/
def State.imgParent (s : State) (piece : Nat) : Nat :=
  if piece % 2 == 1 && s.job.image.parent1 != 0xFFFFF then s.job.image.parent1 else s.job.image.parent0

/-- The device asked after a failure: the other parent, and after four failures the root (R170). DESIGN CHOICE (log 105): the root at once where
the other parent is fenced too. -/
def State.imgNext (s : State) (r : ImgReq) : Nat :=
  let i := s.job.image
  if 4 ≤ r.attempts then i.rootdev
  else
    let o := if r.from_ == i.parent0 && i.parent1 != 0xFFFFF then i.parent1 else i.parent0
    if s.isFenced o then i.rootdev else o

/-- A request has failed: it goes to the other parent (R170). -/
def State.imgFail (s : State) (r : ImgReq) : State :=
  let a := { r with attempts := r.attempts + 1 }
  let r' := { a with from_ := s.imgNext a, since := s.clock }
  ({ s with job := { s.job with image := { s.job.image with reqs := mapIf (fun x => x.piece == r.piece) (fun _ => r') s.job.image.reqs } } } : State).imgSend r'.from_ r.piece

/-- Ask for the pieces not held: piece 0 first, then the rest. -/
def State.imgGo (s : State) : State :=
  let i := s.job.image
  if s.job.phase != .starting || s.imgRoot || i.done then s else
  let want := if (i.have_.find 0).isNone then [0] else (List.range i.npieces).filter (fun p => (i.have_.find p).isNone)
  foldS (want.filter (fun p => !i.reqs.any (fun r => r.piece == p))) (fun p s =>
    let r0 : ImgReq := { piece := p, from_ := s.imgParent p, since := s.clock, attempts := 0 }
    let r := if s.isFenced r0.from_ then { r0 with from_ := s.imgNext r0 } else r0
    ({ s with job := { s.job with image := { s.job.image with reqs := s.job.image.reqs ++ [r] } } } : State).imgSend r.from_ p) s

/-- Requests whose parent has been fenced (R170). -/
def State.imgFenced (s : State) (dev : Nat) : State :=
  foldS (s.job.image.reqs.filter (fun r => r.from_ == dev)) (fun r s => s.imgFail r) s

/-- A child's request, as a frame of its channel. -/
def State.imgAsked (s : State) (dev piece : Nat) : Tx := .imgReq s.ident.device { src := dev, job := s.job.tag, epoch := s.job.epoch, piece := piece, data := 0 }

/-- Serve a piece to a device, or keep its request, under its credits, until the piece is held (R169). -/
def State.imgServe (s : State) (dev piece : Nat) : State :=
  match s.imgPiece piece with
  | some v => s.sendTx 0 6 (.imgPiece dev { src := s.ident.device, job := s.job.tag, epoch := s.job.epoch, piece := piece, data := v })
  | none =>
    if s.job.image.kids.contains (dev, piece) then s
    else ({ s with job := { s.job with image := { s.job.image with kids := s.job.image.kids ++ [(dev, piece)] } } } : State).msgKeep 0 (s.imgAsked dev piece)

/-- Whether a piece agrees with its check: piece 0 with PIECE0_CRC, another with PCRC of the directory (R169). -/
def State.imgOk (s : State) (piece v : Nat) : Bool :=
  let i := s.job.image
  decide (piece < i.npieces) &&
  (if piece == 0 then crcOf 65536 v == i.piece0
   else match i.have_.find 0 with
    | none => false
    | some d => crcOf 65536 v == byt d (15 + 4 * piece) (12 + 4 * piece))

/-- A piece arrives. -/
def State.imgIn (s : State) (m : ImgMsg) : State :=
  let i := s.job.image
  if s.job.phase != .starting || (i.have_.find m.piece).isSome || !i.reqs.any (fun r => r.piece == m.piece) then s.countH 0x0D
  else if !s.imgOk m.piece m.data then foldS (i.reqs.filter (fun r => r.piece == m.piece)) (fun r s => s.imgFail r) s
  else
    let kids := i.kids.filter (fun k => k.2 == m.piece)
    let i' := { i with have_ := i.have_.set m.piece m.data, reqs := i.reqs.filter (fun r => r.piece != m.piece), progress := s.clock,
                       kids := i.kids.filter (fun k => k.2 != m.piece) }
    foldS kids (fun k s => (s.imgServe k.1 k.2).msgGive 0 (s.imgAsked k.1 k.2)) { s with job := { s.job with image := i' } }

/-- BCAST_TIMEOUT: a piece that has not come within BCAST_T (R170). -/
def State.bcastTimeout (s : State) (piece : Nat) : State :=
  foldS (s.job.image.reqs.filter (fun r => r.piece == piece && s.passed r.since (s.hpar .bcastT))) (fun r s => s.imgFail r) s

/-- `n` bytes of the image at an offset. -/
def State.imgRead (s : State) (off n : Nat) : Nat :=
  let p0 := off / 65536
  let ps := List.range ((off + n + 65535) / 65536 - p0)
  let v := ps.foldl (fun a i => a + ((s.imgPiece (p0 + i)).getD 0) <<< (524288 * i)) 0
  fld v (8 * (off % 65536 + n) - 1) (8 * (off % 65536))

/-- Whether the pieces of a range are held. -/
def State.imgHas (s : State) (off n : Nat) : Bool :=
  (List.range ((off + n + 65535) / 65536 - off / 65536)).all (fun i => (s.imgPiece (off / 65536 + i)).isSome)

/-- The sections of the directory: kind, length, offset (R168). -/
def State.imgSections (s : State) : List (Nat × Nat × Nat) :=
  match s.imgPiece 0 with
  | none => []
  | some d => (List.range (min (byt d 1 0) 64)).map (fun t =>
      let x := 16400 + 16 * t
      (byt d (x + 3) x, byt d (x + 7) (x + 4), byt d (x + 15) (x + 8)))

/-- The convoy entries of a roster from bit 0 of `v`. -/
def rosterConvoys : Nat → Nat → List RConv
  | 0, _ => []
  | n + 1, v =>
    let k := byt v 1 1
    let m := byt v 2 2
    { cidx := byt v 0 0, k := k, m := m, xp := byt v 3 3, no := byt v 7 4,
      mem := (List.range (k + m)).map (fun i => fld v (64 + 32 * i + 19) (64 + 32 * i)) } :: rosterConvoys n (v >>> (64 + 32 * (k + m)))

/-! ## Joins (R65, R171) -/

/-- Send the join messages of this device's positions, and register its own UID in a new job. -/
def State.sendJoins (s : State) : State :=
  foldS s.convoys (fun c s =>
    let s1 := if s.job.locker then s else s.regUid c.idx c.pos s.ident.uid
    foldS (s1.otherPos c) (fun x s => s.sendVote c x s.job.startStep 4 c.pos none s.ident.uid c.digest) s1) s

/-- The CDIGEST of position 0 of a convoy: this device's own, or that of its join. -/
def State.digestZero (s : State) (c : Convoy) : Option Nat :=
  if c.pos == 0 then some c.digest else (s.job.joins.find? (fun j => j.convoy == c.idx && j.pos == 0)).map (·.cdig)

/-- The job is refused on a convoy (R65). -/
def State.refuseConvoy (s : State) (c : Nat) : State :=
  if s.job.refused.contains c then s
  else ({ s with job := { s.job with refused := c :: s.job.refused } } : State).evH .convoyMismatch []

/-- Act on the joins received, once the roster and, for a LOCKER start, the registered UIDs are in (R171). -/
def State.judgeJoins (s : State) : State :=
  if s.job.roster.isEmpty || (s.job.locker && !s.steps.restored) then s else
  foldS s.convoys (fun c s =>
    match s.digestZero c with
    | none => s
    | some d0 =>
      let js := s.job.joins.filter (fun j => j.convoy == c.idx)
      let s1 := if c.digest != d0 || js.any (fun j => j.cdig != d0) then s.refuseConvoy c.idx else s
      foldS (js.filter (fun j => j.cdig == d0)) (fun j s =>
        let u := s.job.uids.get 0 (c.idx, j.pos)
        if !s.job.locker then (if u == 0 then s.regUid c.idx j.pos j.uid else s)
        else if u == j.uid || s.job.replaced.contains (c.idx, j.pos) || s.job.placed.contains j.dev then s
        else
          ({ s with job := { s.job with replaced := (c.idx, j.pos) :: s.job.replaced, vacant := (c.idx, j.pos) :: s.job.vacant } } : State).evH .memberReplaced []) s1) s

/-- A join message (R171). -/
def State.joinIn (s : State) (c x dev uid cdig : Nat) : State :=
  ({ s with job := { s.job with joins := s.job.joins.filter (fun j => !(j.convoy == c && j.pos == x)) ++
    [{ convoy := c, pos := x, dev := dev, uid := uid, cdig := cdig }] } } : State).judgeJoins

/-- Whether every other member's join is in. -/
def State.joined (s : State) : Bool :=
  s.convoys.all (fun c => (s.otherPos c).all (fun x => s.job.joins.any (fun j => j.convoy == c.idx && j.pos == x)))

/-! ## The start-up sequence (R172, R495) -/

/-- Load the roster once its pieces are held: verdicts taken since J apply to it, and the joins go out. -/
def State.loadRoster (s : State) : State :=
  if !s.job.roster.isEmpty then s else
  match s.imgSections.find? (fun t => t.1 == 1) with
  | none => s
  | some (_, len, off) =>
    if !s.imgHas off len then s else
    let v := s.imgRead off len
    let n := byt v 3 0
    let c := byt v 7 4
    let devs := (List.range n).map (fun i => (fld v (64 * i + 83) (64 * i + 64), fld v (64 * i + 85) (64 * i + 84)))
    let s1 := { s with job := { s.job with roster := devs, rconv := rosterConvoys c (v >>> (64 + 64 * n)), verdicts := [] } }
    let s2 := foldS s.job.verdicts (fun d s =>
      if d.fail then s.passPlaces d.failed d.standby d.uid (s.placesOf d.failed)
      else s.passPlaces d.failed d.standby d.uid (s.leftPlaces d.failed)) s1
    if s2.job.standby then s2 else s2.sendJoins.judgeJoins

/-- Write the data sections, on logical quay 0 (log 24), and the group definitions of the image, as plain lines (R168, R217, R219,
R495). Of a data section's first 16 bytes the low 8 give the address, modulo 2^40, and the region index is not used (log 77); a group
entry with a reserved GKIND or reserved bits set is not taken. -/
def State.imgApply (s : State) : State :=
  foldS s.imgSections (fun t s =>
    let len := t.2.1
    let off := t.2.2
    if t.1 == 2 then
      foldS (List.range (len / 88)) (fun i s =>
        let g := s.imgRead (off + 88 * i) 88
        let nm := fld g 49 32
        if fld g 15 12 != 0 || fld g 55 50 != 0 || byt g 87 20 != 0 || 1 < byt g 2 2 then s
        else if byt g 2 2 == 1 then
          let ls := elems 32 nm (s.imgRead (byt g 15 8) (4 * nm))
          match s.defineGroup true (fld g 11 0) (byt g 3 3) nm (byt g 7 7) (byt g 19 16) ls with
          | (some s', _) => s'
          | (none, true) => s.evH .groupPoolFull []
          | (none, false) => s
        else s.groupWrite true (s.groupAddr (fld g 11 0)) 32 0) s
    else if t.1 == 3 && decide (16 < len) then
      let a := s.imgRead off 8 % 2 ^ 40
      let v := s.imgRead (off + 16) (len - 16)
      foldS (linesOf a (len - 16)) (fun x s =>
        let pt := linePart a (len - 16) v x
        s.putLine 0 x (mergeLine pt.1 pt.2 (s.getLine 0 x)) .own) s
    else s) s

/-- Stage 1 of R495: every line of every data unit gets its check-shadow entry. -/
def State.makeShadow (s : State) : State :=
  foldS s.lquays (fun l s => (foldS s.convoys (fun c s =>
    foldS (List.range (c.d.getD l 0)) (fun d s =>
      match (s.lquay l).addrOfD c.idx d with
      | none => s
      | some a => foldS (List.range 32) (fun i s => s.shadowPut l (c.shadowAddr l d) i (lineCrc (s.getLine l (a + 128 * i)))) s) s) s).shadowFlushAll l) s

/-- Anchor every stripe for which this device holds a parity piece: stage 2 of R495, and the last part of a restore (R412). -/
def State.anchorOwn (s : State) : State :=
  foldS s.lquays (fun l s => foldS s.convoys (fun c s => foldS (List.range (c.stripes l)) (fun st s =>
    let r := c.role st
    if c.k ≤ r && !(c.presentIdx l st).isEmpty then s.startAnchor l c.idx st (r - c.k) .jobStart else s) s) s) s

/-- Go on with a job start: pieces, roster and joins, data sections or restore, anchoring, JOB_READY (R172). -/
def State.jobGo (s : State) : State :=
  if s.job.phase != .starting then s else
  let s1 := s.imgGo.loadRoster
  if s1.job.roster.isEmpty || !(List.range s1.job.image.npieces).all (fun p => s1.imgRoot || (s1.job.image.have_.find p).isSome) then s1 else
  let s2 := if s1.job.image.done then s1 else
    let a := State.imgApply { s1 with job := { s1.job with image := { s1.job.image with done := true } } }
    if a.job.locker && !a.job.standby && !a.ident.gen then a.restoreStart a.job.startStep
    else { (if a.job.standby || a.ident.gen then a else a.makeShadow) with job := { a.job with dataDone := true } }
  let r := if s2.job.locker && !s2.job.dataDone then s2.restoreNext else (s2, false)
  let s3 := if r.2 then State.judgeJoins { r.1 with job := { r.1.job with dataDone := true } } else r.1
  if !s3.job.dataDone then s3 else
  let s4 := if s3.job.anchored || s3.job.standby || s3.ident.gen then s3
    else State.anchorOwn { s3 with job := { s3.job with anchored := true } }
  if s4.lquays.any (fun l => (s4.lquay l).conv.anch.any (fun a => a.cause == .jobStart)) || !s4.job.refused.isEmpty || s4.job.restoreBad ||
      !(s4.job.standby || s4.ident.gen || s4.joined) then s4
  else
    let s5 := ({ s4 with job := { s4.job with phase := .ready } } : State).evH .jobReady []
    if s5.ident.gen then s5.refrAskAll else s5

/-- JOB_START_FAILED (R170). -/
def State.jobStartFail (s : State) : State :=
  let i := s.job.image
  if s.job.phase == .starting && !i.done && !i.failed && s.passed i.progress (64 * s.hpar .bcastT) then
    ({ s with job := { s.job with image := { i with failed := true } } } : State).evH .jobStartFailed []
  else s

/-! ## Teardown (R173 to R175) -/

/-- Whether berths of a class outlive the job: those of hold transfers and of the log, and those of remote items, which may be of job 0. -/
def Owner.pastJob (o : Owner) : Bool := o == .page || o == .ovf || o == .retained || o == .combine

/-- Drop the remote items in the intake whose job is not `0`, unanswered; `count` says whether TORN_DROP counts their packets (R173, R174,
R271). -/
def State.intakeDrop (s : State) (l : Nat) (count : Bool) : State :=
  let mine := fun (x : RHeld) => (RHdr.dec x.frame.pkt).job != 0
  let fs := (((s.lquay l).rmt.held.filter mine).map (·.frame)).eraseDups
  let s1 := s.modLquay l (fun q => { q with rmt := { q.rmt with held := q.rmt.held.filter (fun x => !mine x) } })
  foldS fs (fun f s => (if count then s.tornDrop l else s).rxReturn l f) s1

/-- What job start and teardown clear: the optimizer's tables, numeric counts, the remote-read cache, streams, the combiner,
collectives, refresh, salvage and the lock-step comparison (R180, R208, R263, R275, R359). -/
def State.clearJobWork (s : State) : State :=
  let q' := fun (q : Quay) => { q with conv := { appends := q.conv.appends, ovfPut := q.conv.ovfPut, nextId := q.conv.nextId }, salv := {}, nw := [],
                                       dredge := { q.dredge with wait := [], retry := [], parked := false, mark := false },
                                       lostLines := [], packs := [], susp := q.susp.map (fun e => (e.1, { e.2 with lastKat := 0 })) }
  let jobs' := fun (o : Owner) => !o.pastJob
  let jobs := fun (b : Berth) => jobs' b.owner
  let s1 := foldS s.lquays (fun l s => (((s.shadowFlushAll l).modLquay l q').berthFree l jobs (fun r => jobs' r.owner)).modPort l (fun p => { p with mirrorOk := [], lockD := [], lockW := [] })) s
  State.rrcDrop { s1 with opt := {}, num := {}, salv := [], xpar := {}, lock := {}, coll := {},
                          refr := { sched := s1.refr.sched, nextSched := s1.refr.nextSched } } (fun _ => true)

/-- Release every segment of a position. -/
def State.segsFree (s : State) (l : Nat) : State := foldS (s.port l).log.segs (fun g s => s.segFree l g.slot) s

/-- Add a tombstone; a fifth drops the oldest (R174). -/
def State.addTomb (s : State) (tag : Nat) : State :=
  let ts := s.job.tombs ++ [{ tag := tag, drained := none }]
  { s with job := { s.job with tombs := ts.drop (ts.length - 4) } }

/-- Fence the job and start the drain (R173): held launches abort with its collectives, remote items in the intake are late traffic and are dropped
(R174, R271), and the prefetch order is cleared (R326). -/
def State.endJob (s : State) : State :=
  let s1 := s.addTomb s.job.tag
  let s2 := foldS (s1.man.held.filter (fun h => manType h.entry.toNat == 8)) (fun h s => s.abortColl (byt h.entry.toNat 39 36) 7) (s1.abortWhere (fun _ => true) 7)
  let s3 := if s2.locker.flush.isSome then s2.flushEnd 2 5 else s2
  let s4 := foldS s3.lquays (fun l s => s.segsFree l) { s3 with
    steps := { s3.steps with recs := [], opened := false, tallies := [], stickyAbort := false },
    locker := { s3.locker with restore := none, reqs := [], relays := [] } }
  let s5 := foldS s4.lquays (fun l s => foldS ((s.lquay l).conv.heldL.filter (fun h => h.why == .berth)) (fun h s => s.rxReturn l h.frame) s) s4
  let s5 := foldS s5.lquays (fun l s => s.intakeDrop l true) s5
  let s6 := foldS (s5.coll.early) (fun i s => s.rxGive i.pos i.frame) s5
  let s7 := State.clearJobWork { s6 with man := { s6.man with held := s6.man.held.filter (fun h => manJob h.entry.toNat == 0),
                                                              due := s6.man.due.filter (fun d => match d with
      | .launch _ => false
      | _ => true) } }
  let keep := s6.coll.resend
  let s7 := foldS s7.lquays (fun l s => s.modPort l (fun p => { p with cursor := none })) { s7 with hold := none }
  State.refrDiscard { s7 with coll := { s7.coll with resend := keep }, job := { s7.job with phase := .draining, convoyLost := [] } }

/-- The drain ends (R173, R175): what is still outstanding is freed, the berths of the job too, and the tag's tombstone starts its
time. Streams of job 0, through windows of SCOPE 1, are no part of the job and go on (R246, R252). -/
def State.drainEnd (s : State) : State :=
  if s.job.phase != .draining then s else
  let s1 := foldS s.lquays (fun l s => foldS ((s.lquay l).rmt.oot.filter (fun o => o.job != 0)) (fun o s => s.rmtEnd l o (if o.kind == 1 then 6 else 5)) s) s
  let s2 := foldS s1.lquays (fun l s => s.intakeDrop l false) s1
  let s3 := foldS s2.lquays (fun l s => ((s.modLquay l (fun q => { q with rmt := { q.rmt with
      streams := q.rmt.streams.filter (fun (e : (Nat × Nat × Nat) × RStream) => e.1.1 == 0), turns := q.rmt.turns.filter (fun t => t.1 == 0) } })).berthFree l
    (fun b => !b.owner.pastJob) (fun r => !r.owner.pastJob)).berthSync l) s2
  let s4 := s3.evH .jobTorn []
  let tag := s4.job.tag
  { s4 with job := { tombs := mapIf (fun t => t.tag == tag) (fun t => { t with drained := some s4.clock }) s4.job.tombs,
                     heldJob := s4.job.heldJob, heldMsg := s4.job.heldMsg } }

/-- JOB_TEARDOWN (R173). -/
def State.manTeardown (s : State) (m : Nat) : ManOut :=
  if byt m 119 32 != 0 then .bad s
  else if s.jobOn && s.job.tag == manJob m then .done s.endJob
  else .bad s

/-- TOMBSTONE_EXPIRY (R174). -/
def State.tombExpire (s : State) (tag : Nat) : State :=
  { s with job := { s.job with tombs := s.job.tombs.filter (fun t => !(t.tag == tag && (match t.drained with
    | some d => s.passed d (s.hpar .tombT)
    | none => false))) } }

/-- JOB_HOLD_EXPIRY: traffic of a job not started within JOB_HOLD_T is dropped (R176); what waits for another reason stays. -/
def State.jobHoldExpire (s : State) : State :=
  let old := fun (job t : Nat) => s.jobGate job == .other && s.passed t (s.hpar .jobHoldT)
  let s1 := foldS (s.job.heldJob.filter (fun i => old i.job i.since)) (fun i s => (s.countH 0x11).rxGive i.pos i.frame) s
  let s2 := foldS (s.job.heldMsg.filter (fun i => old i.job i.since)) (fun i s => (s.countH 0x11).msgGive i.pos i.msg) s1
  { s2 with job := { s2.job with heldJob := s2.job.heldJob.filter (fun i => !old i.job i.since), heldMsg := s2.job.heldMsg.filter (fun i => !old i.job i.since) } }

/-! ## Job start (R167, R172) -/

/-- The fields of a job-start manifest that are out of range. -/
def jobStartBad (m : Nat) : Bool :=
  byt m 33 32 == 0 || fld m 279 275 != 0 || byt m 35 35 != 0 || byt m 39 36 == 0 || byt m 59 58 != 0 ||
  fld m 567 564 != 0 || fld m 591 588 != 0 || fld m 615 612 != 0 || byt m 79 77 != 0 || byt m 87 80 % 4096 != 0 ||
  byt m 91 88 == 0 || decide (4096 < byt m 91 88) || byt m 119 96 != 0

/-- A job begins at its start step and cursor, with its own chain and image (R167, R172): 0xF_FFFF as PARENT0 stands for the root. The record
area is cleared where no restore is to fill it (R133). -/
def State.beginJob (s : State) (m : Nat) : State :=
  let tag := byt m 33 32
  let fl := byt m 34 34
  let root := fld m 611 592
  let img : Image := { npieces := byt m 91 88, piece0 := byt m 95 92, parent0 := if fld m 563 544 == 0xFFFFF then root else fld m 563 544, parent1 := fld m 587 568,
                       rootdev := root, addr := byt m 87 80, progress := s.clock }
  let start := byt m 57 52
  let cur := byt m 67 60
  let rec0 := stepZero tag (byt m 47 40) cur
  let s1 := State.clearJobWork { s with
    job := { tag := tag, epoch := byt m 39 36, phase := .starting, seed := byt m 47 40, learners := byt m 51 48,
             standby := bitOf fl 0, locker := bitOf fl 1, startStep := start, startCursor := cur, image := img,
             tombs := s.job.tombs, heldJob := s.job.heldJob, heldMsg := s.job.heldMsg },
    steps := { last := start, moored := start, expCursor := cur, prevRec := rec0, unknown := bitOf fl 0 } }
  let s2 := foldS s1.lquays (fun l s => (s.segsFree l).scaleClear l) s1
  if bitOf fl 1 && !bitOf fl 0 && !s.ident.gen then s2 else s2.clearReplicas

/-- JOB_START at its scan (R167, R172): the job begins, unless its tag is tombstoned. It waits while a job is active, starting or draining, while
FAIL_STOP_IN keeps the harbour stopped, and while a charter rewrite runs (R176, R433, R464). -/
def State.manJobStart (s : State) (m : Nat) : ManOut :=
  if s.job.phase != .none || s.sb.stopped || decide (1 ≤ s.crw.state ∧ s.crw.state ≤ 5) then .wait s
  else if jobStartBad m || manEpoch m != 0 || s.job.tombs.any (fun t => t.tag == byt m 33 32) then .bad s
  else .done (s.beginJob m)

end Sys2Proof.Machine
end

