-- ==== Sys2Proof/Machine/Enable.lean ====
section
/-! DEFINITION. The checks a quay makes when it is enabled (R25, R64, R102, R186, R219, R245, R255, R273, R306, R319, R390,
R481, R483, R485, R493), enabling and disabling (R476), and the role change (R5, R6). -/

namespace Sys2Proof.Machine

/-- Whether two areas, each a start and a length, overlap. -/
def overlap (a b : Nat × Nat) : Bool :=
  decide (a.1 < b.1 + b.2) && decide (b.1 < a.1 + a.2) && decide (0 < a.2) && decide (0 < b.2)

/-- The bytes of a region. -/
def Region.area (r : Region) : Nat × Nat := (r.base * 4096, r.size * 4096)

/-- Whether an area lies in plain memory (R24): no region of another kind touches it, nor one that fails `p`. -/
def Quay.plainArea (q : Quay) (p : Region → Bool) (a : Nat × Nat) : Bool :=
  q.regions.all (fun r => !overlap r.area a || (r.kind == 0 && p r))

/-- Whether an area lies wholly in one protected region with NW = 0. -/
def Quay.protArea (q : Quay) (a : Nat × Nat) : Bool :=
  q.regions.any (fun r => r.kind == 1 && !r.nw && decide (r.area.1 ≤ a.1) && decide (a.1 + a.2 ≤ r.area.1 + r.area.2))

/-- Whether an area lies wholly in regions that satisfy `p`; `n` bounds the regions it crosses. -/
def Quay.covered (q : Quay) (p : Region → Bool) : Nat → Nat → Nat → Bool
  | 0, a, e => decide (e ≤ a)
  | n + 1, a, e => if e ≤ a then true else
    match q.regions.find? (fun r => p r && decide (r.area.1 ≤ a) && decide (a < r.area.1 + r.area.2)) with
    | none => false
    | some r => q.covered p n (r.area.1 + r.area.2) e

/-! ## The region table (R25 to R27, R299, R319) -/

/-- Whether a role admits a kind (R26). -/
def kindRole (gen : Bool) (k : Nat) : Bool :=
  if k == 1 || k == 2 then !gen else if k == 4 then gen else decide (k ≤ 6)

/-- Whether a kind admits a stored format (R26). -/
def kindFmt (k f : Nat) : Bool :=
  match k with
  | 1 => decide (f ≤ 3)
  | 2 | 3 => decide (1 ≤ f) && decide (f ≤ 3)
  | 4 => decide (4 ≤ f) && decide (f ≤ 11)
  | 5 => decide (1 ≤ f) && decide (f ≤ 11)
  | _ => decide (f ≤ 11)

/-- Whether an entry breaks a rule that looks at it alone. -/
def Region.bad (gen : Bool) (r : Region) : Bool :=
  r.size == 0 || !kindRole gen r.kind || !kindFmt r.kind r.fmt ||
  (isMx r.fmt && (r.size * 4096) % mxFrame (max r.ew 1) != 0) ||
  (r.kind == 6 && (r.base % 16 != 0 || r.size % 16 != 0))

/-- The lowest offending region entry under a role. -/
def Quay.regionBad (q : Quay) (gen : Bool) : Option Nat :=
  let rs := q.regions
  (rs.find? (fun r => r.bad gen || rs.any (fun x => x.idx != r.idx && overlap x.area r.area))).map (·.idx)

/-! ## Convoys, windows, refresh, tiles, replicas (R64, R245, R273, R481, R483, R485) -/

/-- Parity and check-shadow area of a convoy on a quay (R64). -/
def Convoy.areas (c : Convoy) (l : Nat) : List (Nat × Nat) :=
  [(c.par.getD l 0 * 4096, c.parUnits l * 4096), (c.sh.getD l 0 * 4096, (c.d.getD l 0 + c.parUnits l) * 128)]

/-- Whether an entry is held for a placement: VALID = 0 with the geometry of R151 in it, K and M in range (R62, log 88). -/
def Convoy.held (c : Convoy) : Bool := decide (2 ≤ c.k) && decide (c.k ≤ 30) && decide (1 ≤ c.m) && decide (c.m ≤ 4)

/-- The lowest offending convoy entry on a quay: R64 in its order, then the partner of R485. A standby's protected regions name the entries it
holds with VALID = 0 until its placement, so an entry held is none of those R64 calls invalid (R151, log 88). -/
def State.convoyBad (s : State) (p : Nat) : Option Nat :=
  let q := s.quay p
  let l := s.lqOf p
  let cs := s.convoys
  let log := (s.lpar l .logBase * 4096, s.lpar l .logSize * 4096)
  let own := q.regions.filter (fun r => r.kind == 1)
  let bad := fun (c : Convoy) =>
    let mem := (List.range c.n).map c.dev
    let others := ((cs.filter (fun x => x.idx != c.idx)).flatMap (fun x => x.areas l)) ++ q.regions.map Region.area ++ [log]
    c.k < 2 || 30 < c.k || c.m < 1 || 4 < c.m || c.n ≤ c.pos || c.dev c.pos != s.ident.device ||
    mem.contains 0xFFFFF || mem.eraseDups.length != mem.length ||
    (own.filter (fun r => r.convoy == c.idx)).foldl (fun a r => a + r.size) 0 != c.d.getD l 0 ||
    (c.areas l).any (fun a => decide (2 ^ 40 < a.1 + a.2) || others.any (overlap a)) ||
    overlap ((c.areas l).getD 0 (0, 0)) ((c.areas l).getD 1 (0, 0)) ||
    (c.m ≤ 3 && !cs.any (fun x => x.idx == c.xp && x.n == c.n))
  let named := (own.map (·.convoy)).filter (fun i => !cs.any (fun c => c.idx == i) && !(s.convoy i).held)
  match sortBy (fun a b => decide (a ≤ b)) ((cs.filter bad).map (·.idx) ++ named) with
  | i :: _ => some i
  | [] => (q.regions.find? (fun r => overlap r.area log)).map (·.idx)

/-- The quay that holds a logical index, in service or not. -/
def State.quayOf (s : State) (l : Nat) : Quay := ((s.physAll.map s.quay).find? (fun q => q.lq == some l)).getD {}

/-- The lowest offending job window, of every quay's windows, each against the region table and the reserved areas of its QUAY (R245). -/
def State.windowBad (s : State) : Option Nat :=
  let ws := ((List.range 16).map (fun w => (w, s.window w))).filter (fun w => w.2.valid)
  let area := fun (w : Win) => (w.base * 4096, w.size * 4096)
  (ws.find? (fun w => decide (s.fit.nActive ≤ w.2.quay) || w.2.size == 0 ||
    !(s.quayOf w.2.quay).covered (fun r => r.rmt) 257 (w.2.base * 4096) ((w.2.base + w.2.size) * 4096) ||
    (s.reservedAreas w.2.quay).any (overlap (area w.2)) ||
    ws.any (fun x => x.1 != w.1 && x.2.quay == w.2.quay && x.2.scope == w.2.scope && overlap (area x.2) (area w.2)))).map (·.1)

/-- The lowest offending refresh entry on a learner quay (R273, R484). -/
def State.refreshBad (s : State) (p : Nat) : Option Nat :=
  let q := s.quay p
  let l := s.lqOf p
  let es := s.refrEnts.map (fun r => (r, s.refrEnt r))
  let span := fun (e : REnt) => (e.elem, s.tensorLines e.ptag * 64)
  let lines := es.foldl (fun a e => a + s.refrLines l e.1) 0
  let mirror := es.foldl (fun a e => a + s.refrLines l e.1 * 2 * blockBytes e.2.fmt) 0
  let plain := q.plainArea (fun r => !r.rmt)
  match es.find? (fun e => e.2.fmt < 4 || 11 < e.2.fmt ||
      es.any (fun x => x.1 != e.1 && (x.2.ptag == e.2.ptag || (x.2.gtag == e.2.gtag && overlap (span x.2) (span e.2))))) with
  | some e => some e.1
  | none =>
    let a := (s.lpar l .refrMirrorBase, mirror)
    let b := (s.lpar l .refrDirtyBase, 2 * cdiv lines 8)
    if plain a && plain b && !overlap a b then none
    else es.head?.map (·.1)

/-- The lowest valid tile entry with no rows or no columns (R481). -/
def State.tileEntBad (s : State) : Option Nat :=
  (List.range 16).find? (fun t => let e := s.tileEnt t; e.valid && (e.rows == 0 || e.cols == 0))

/-- Device and RIDX of the replica entries in use (R405, R483). -/
def State.replicaEnts (s : State) : List (Nat × Nat) :=
  (List.range s.rcount).map (fun i => (fld (s.hw (0x1800 + 8 * i)) 19 0, fld (s.hw (0x1804 + 8 * i)) 15 8))

/-- The lowest offending replica entry (R483), 0 when none names the device. -/
def State.replicaBad (s : State) : Option Nat :=
  if s.rcount ≤ 1 then none else
  let es := s.replicaEnts
  let idx := (List.range es.length).zip es
  match idx.find? (fun e => decide (s.rcount ≤ e.2.2) || idx.any (fun x => x.1 != e.1 && x.2.2 == e.2.2)) with
  | some e => some e.1
  | none => if es.any (fun e => e.1 == s.ident.device) then none else some 0

/-! ## Parameters and the areas they place (R102, R186, R219, R255, R306, R319, R390, R493) -/

/-- Parameters without default that any device needs (R493): those of logical quay 0. -/
def alwaysOn0 : List Param := [.evtBase, .fsigBase, .grpBase, .grpPoolBase, .nwBase]

/-- The parameters of each manifest ring: its quay, base and size (R45). -/
def ringPars : List (Param × Param × Param) :=
  [(.hostRingQuay, .hostRingBase, .hostRingLog2), (.verdictRingQuay, .verdictRingBase, .verdictRingLog2)]

/-- The KEYs at fault of the manifest rings on a quay (R45, R493): the quay that holds a ring checks it, whose values are those of logical
quay 0 (R489), which checks a ring without a place. -/
def State.ringBad (s : State) (p : Nat) : List Param :=
  let v := fun x => s.param? s.q0 x
  let l := s.lqOf p
  ringPars.flatMap (fun (x : Param × Param × Param) => match v x.1 with
    | none => if l == 0 then [x.1] else []
    | some h =>
      if h != l && !(l == 0 && decide (s.fit.nActive ≤ h)) then [] else
      (if s.fit.nActive ≤ h then [x.1] else []) ++ [x.2.1, x.2.2].filter (fun y => (v y).isNone) ++
      (match v x.2.1, v x.2.2 with
        | some a, some n => if h == l && !(s.quay p).plainArea (fun _ => true) (a, 256 + 128 * 2 ^ n) then [x.2.1] else []
        | _, _ => []))

/-- The parameters required of a quay under a role (R493). -/
def State.required (s : State) (p : Nat) (gen : Bool) : List Param :=
  let l := s.lqOf p
  let on0 := fun (b : Bool) (xs : List Param) => if l == 0 && b then xs else []
  let here := fun (b : Bool) (xs : List Param) => if b then xs else []
  on0 true alwaysOn0 ++ [.rmtTabBase] ++
  here ((List.range 6).any (fun i => s.lpar l (.berthMem i) != 0)) [.berthMemBase] ++
  here (!gen) [.logBase, .logSize, .optStateBase, .salvMapBase] ++ on0 (!gen) [.recBase] ++
  here (!gen && !s.refrEnts.isEmpty) [.refrMirrorBase, .refrDirtyBase] ++
  here gen [.refrStageBase, .refrStageSize] ++
  here ((s.quay p).regions.any (fun r => isMx r.fmt)) [.scaleMapBase] ++
  here (s.lpar l .holdSlots != 0) [.holdBase, .holdFrameBase, .holdMapBase] ++
  on0 (s.hpar .lockerDev != 0xFFFFF) [.lockerBase, .lockerSlot, .flushCplBase] ++
  on0 (s.hpar .lockPeer != 0xFFFFF) [.lockWin, .lockOff]

/-- Whether a value set for a parameter is out of its range (R390). -/
def State.outOfRange (s : State) (p : Nat) (x : Param) : Bool :=
  match (s.quay p).params.find x with
  | none => false
  | some v =>
    let g := fun y => (s.param? p y).getD 0
    let ring := if x == .logSpecLimit then s.ringBytes (s.lqOf p) / 2 ^ 20 else 0
    let r := paramRange ring g x
    decide (v.val < r.1) || decide (r.2 < v.val) || !paramForm x v.val

/-- The KEYs at fault on a quay: those undefined or given twice, required ones without a value, values out of range, an RMT_LIFE_T
below 4 × RMT_ACK_T (R253), one slot for dredge and known-answer runs (R42), a staging ring too small for a FULL refresh (R288), and areas in the wrong
place. -/
def State.paramBad (s : State) (p : Nat) : List Nat :=
  let q := s.quay p
  let l := s.lqOf p
  let gen := s.ident.gen
  let missing := (s.required p gen).filter (fun x => (s.param? p x).isNone)
  let pool := fun (x : Param) => x == .berthMemBase || (List.range 6).any (fun i => x == .berthSram i || x == .berthMem i)
  let range := (allParams.map (·.1)).filter (fun x => !pool x && s.outOfRange p x)
  let log := if !gen && s.ringBytes l < 2 ^ 20 then [Param.logSize] else []
  let opt := if !gen && !q.protArea (s.lpar l .optStateBase, 4096 * 128) then [Param.optStateBase] else []
  let grp := fun (a : Nat × Nat) => if gen then q.plainArea (fun _ => true) a else q.protArea a
  let g1 := if l == 0 && !grp (s.lpar l .grpBase, 4096 * 32) then [Param.grpBase] else []
  let g2 := if l == 0 && !grp (s.lpar l .grpPoolBase, s.lpar l .grpPoolSize) then [Param.grpPoolBase] else []
  let rec0 := if !gen && l == 0 && !q.plainArea (fun r => !r.nw && !r.rmt) (s.lpar l .recBase, 37 * 4096) then [Param.recBase] else []
  let cpl := if l == 0 && s.hpar .lockerDev != 0xFFFFF && !q.plainArea (fun _ => true) (s.lpar l .flushCplBase, 32) then [Param.flushCplBase] else []
  let rmt := if !q.plainArea (fun r => !r.rmt) (s.lpar l .rmtTabBase, s.lpar l .rmtStreams * 32) then [Param.rmtTabBase] else []
  let slot := if s.lpar l .dredgeP == s.lpar l .katP && s.lpar l .dredgePhase == s.lpar l .katPhase then [Param.dredgePhase] else []
  let gw := (q.regions.filter (fun r => r.kind == 4)).foldl (fun a r => a + r.size * 4096) 0
  let stage := if gen && decide (8 * s.lpar l .refrStageSize < 9 * gw) then [Param.refrStageSize] else []
  let life := if s.lpar l .rmtLifeT < 4 * s.lpar l .rmtAckT then [Param.rmtLifeT] else []
  (q.cfgErr ++ ((s.ringBad p ++ missing ++ range ++ life ++ slot ++ log ++ rec0 ++ opt ++ g1 ++ g2 ++ cpl ++ stage ++ rmt).eraseDups).map keyOfParam).eraseDups

/-- The lowest offending berth pool: the limits of R306, and the order of its thresholds (R313). DESIGN CHOICE (log 34): a breach of that order
names the pool, as one of R306 does; the place of the memory tiers is checked with the first pool that has one. -/
def State.poolBad (s : State) (p : Nat) : Option Nat :=
  let l := s.lqOf p
  let upTo := fun (i : Nat) => (List.range (i + 1)).foldl (fun a j => a + s.lpar l (.berthSram j) * berthSize j) 0
  let first := ((List.range 6).find? (fun i => s.lpar l (.berthMem i) != 0)).getD 0
  (List.range 6).find? (fun i => s.outOfRange p (.berthSram i) || s.outOfRange p (.berthMem i) || (i == first && s.outOfRange p .berthMemBase) || decide (3584 * 1024 < upTo i) || (i == 2 && decide (s.lpar l (.berthSram 2) < 8)) ||
    !(decide (s.lpar l (.berthT1 i) < s.lpar l (.berthT2 i)) && decide (s.lpar l (.berthT2 i) < s.lpar l (.berthT3 i))) ||
    !(s.quay p).plainArea (fun r => !r.nw && !r.rmt) (s.memTier l i))

/-- Pages of the largest layer of the prefetch order in force on a position. -/
def State.largestLayer (s : State) (l : Nat) : Nat :=
  match s.hold with
  | none => 0
  | some o => (o.layers.map (fun rs => (s.layerPages l rs).length)).foldl max 0

/-- Whether the hold's content does not fit (R319). -/
def State.holdBad (s : State) (p : Nat) : Bool :=
  let l := s.lqOf p
  let slots := s.lpar l .holdSlots
  let pages := ((s.quay p).heldRegions.foldl (fun a r => a + r.size / 16) 0)
  let cold := (s.coldSlots l).foldl (fun a x => a + (x.2 - x.1)) 0
  if slots == 0 then pages != 0 || cold != 0 || s.lpar l .logOvfSize != 0
  else decide (slots < pages + cold + s.ovfSlots l) || (s.coldSlots l).any (fun x => decide (slots < x.2) || decide (x.1 < s.ovfSlots l)) || decide (s.lpar l .holdFrames < (s.lpar l .holdAhead + 1) * s.largestLayer l)

/-- Whether the lock-step area does not lie in the harbour's own window LOCK_WIN (R357); logical quay 0 checks it. -/
def State.lockBad (s : State) (p : Nat) : Bool :=
  let w := s.window (s.hpar .lockWin)
  p == s.q0 && s.hpar .lockPeer != 0xFFFFF &&
    !(w.valid && w.quay == 0 && bitOf w.perm 1 && decide (s.hpar .lockOff + 8192 ≤ w.size * 4096))

/-- What a quay's configuration errors name, one for each rule that fails, in the order of the rules. -/
def State.enableErrs (s : State) (p : Nat) : List Nat :=
  ((s.quay p).regionBad s.ident.gen).toList ++ (s.convoyBad p).toList ++ s.windowBad.toList ++
  (if s.ident.gen then [] else (s.refreshBad p).toList) ++ s.tileEntBad.toList ++ s.replicaBad.toList ++
  (s.poolBad p).toList ++ (if s.holdBad p then [keyOfParam .holdSlots] else []) ++
  (if s.lockBad p then [keyOfParam .lockOff] else []) ++ s.paramBad p

/-! ## Enabling and disabling (R476) -/

/-- Enable a quay and run its checks: ENABLED, or CHK_FAIL and a CONFIG_ERROR for each rule that fails. -/
def State.enableQuay (s : State) (p : Nat) : State :=
  match s.enableErrs p with
  | [] => State.scaleClear (s.modQuay p (fun q => { q with enabled := true, chkFail := false })) (s.lqOf p)
  | es =>
    let s1 := s.modQuay p (fun q => { q with enabled := false, chkFail := true })
    foldS es (fun e s => s.evQ p .configError [(32, e)]) s1

/-- Disable a quay: its berths are freed and its remote-read cache is invalidated. -/
def State.disableQuay (s : State) (p : Nat) : State :=
  let s1 := match (s.quay p).lq with
    | some l => s.berthFree l (fun _ => true) (fun _ => true)
    | none => s
  s1.modQuay p (fun q => { q with enabled := false, rmt := q.rmt.invalidate (fun _ => true) })

/-! ## The role change (R5, R6) -/

/-- Whether the boundary R5 asks for has been reached: a learner has no unmoored step. No rule names the event that completes a generator's
batch step: DESIGN CHOICE, unsafe (log 84), it is over when no pass is open, or once the pass has read the last entry of the
schedule. -/
def State.roleBoundary (s : State) : Bool :=
  if s.ident.gen then match s.refr.pass, s.refr.sched with
    | some x, some sc => x.p == some (sc.entries.length - 1)
    | _, _ => true
  else s.steps.recs.isEmpty

/-- Whether the harbour cannot take a role: a position's regions or keys do not suit it, or a generator-to-be holds protected data (R6). -/
def State.roleBad (s : State) (gen : Bool) : Bool :=
  s.physIn.any (fun p => ((s.quay p).regionBad gen).isSome || (s.required p gen).any (fun x => (s.param? p x).isNone)) ||
    (gen && s.jobOn && s.convoys.any s.isMember)

/-- The role changes (R5, R180): a new generator has no mirror and no descriptors, a new learner no refresh state. -/
def State.takeRole (s : State) (gen : Bool) : State :=
  let s1 := { s with ident := { s.ident with gen := gen } }
  if gen then foldS s1.lquays (fun l s => s.modPort l (fun x => { x with mirrorOk := [] })) { s1 with opt := { s1.opt with descs := [] } }
  else s1.refrDiscard

/-- ROLE_CHANGE (R5, R6). -/
def State.manRole (s : State) (m : Nat) : ManOut :=
  let new := byt m 32 32
  if 1 < new || byt m 119 33 != 0 then .bad s else
  let gen := new == 1
  if gen == s.ident.gen then .done s
  else if !s.roleBoundary then .wait s
  else if s.roleBad gen then .reject (s.evH .role)
  else .done (s.takeRole gen)

end Sys2Proof.Machine
end

