-- ==== Sys2Proof/Machine/Relief.lean ====
section
/-! DEFINITION. Salvage of positions as it drives itself (R151, R157 to R159), relief of a quay (R95, R162 to R166), stand-ins,
risk grades and extra parity (R177 to R179). -/

namespace Sys2Proof.Machine

/-! ## Salvage (R151, R157, R158) -/

/-- SALVAGE_START: the relays for the position are complete and no step of the convoy is aborting; a step whose vote nobody holds is one
that aborts, and is waited for (R120, R151). Operations that waited demand their lines now. -/
def State.salvStart (s : State) : State :=
  let ok := fun (x : SalvPos) => s.steps.recs.all (fun r => r.state != .aborting && s.relayComplete r x.convoy x.pos && (r.votes.find (x.convoy, x.pos)).isSome)
  let go := s.salv.filter (fun x => !x.started && ok x)
  if s.quiet || go.isEmpty then s else
  let s0 := State.evH { s with salv := mapIf (fun x => go.contains x) (fun x => { x with started := true }) s.salv } .salvageStart []
  let s1 := foldS go (fun x s => s.adoptRecords (s.steps.replicas.get [] (x.convoy, x.pos))) s0
  foldS s1.lquays (fun l s => foldS ((s.lquay l).ops.filter (fun o => o.stage == .waitSalvage)) (fun o s => s.demandSalvage l (lineOf o.addr)) s) s1

/-- The stripes of a convoy on a quay whose piece at this device is present and not yet rebuilt, ascending (R157). -/
def State.salvTodo (s : State) (l : Nat) (c : Convoy) : List Nat :=
  (List.range (c.stripes l)).filter (fun st =>
    let r := c.role st
    (if r < c.k then c.present l st r else !(c.presentIdx l st).isEmpty) &&
    !(s.lquay l).salv.units.contains (c.idx, c.pieceNo l st))

/-- Background salvage: up to 64 stripes of each quay under way, in ascending order; at the end SALVAGE_DONE, and the map is
released (R157, R158). -/
def State.salvGo (s : State) : State :=
  foldS (s.salv.filter (·.started)) (fun x s =>
    let c := s.convoy x.convoy
    let left := s.lquays.map (fun l => (l, s.salvTodo l c))
    if left.all (fun e => e.2.isEmpty) then
      let s1 := { s with salv := s.salv.filter (· ≠ x), job := { s.job with standIns := s.job.standIns.filter (fun e => !(e.1 == x.convoy && e.2.1 == x.pos)) } }
      let s2 := foldS s1.lquays (fun l s => s.mapClear l x.convoy) s1
      s2.evH .salvageDone []
    else foldS left (fun e s =>
      let q := s.lquay e.1
      if q.salv.parked || s.quiet then s else
      let s := s.salvClaim e.1
      let room := if s.hasBerth e.1 .background salvWork then 64 - q.salv.passes.length else 0
      let go := (e.2.filter (fun st => (s.passOf e.1 c.idx st).isNone && !s.rebuilding e.1 c.idx (c.pieceNo e.1 st) 32 && !(match s.pieceAddr c e.1 st 0 with
        | some a => q.lostLines.contains a
        | none => true))).take room
      foldS go (fun st s => s.startPass e.1 c.idx st [c.role st] [] false [] 0) s) s) s

/-- The units of ballast in use on a quay: the pieces kept there and the passes that build more (R166, R179). -/
def State.ballastUsed (s : State) (l : Nat) : Nat :=
  (s.xpar.lines.filter (fun e => e.1.2.1 == l && e.1.2.2.2.2 == 0)).length +
    ((s.lquay l).salv.passes.filter (fun p => p.background && p.lost.any (fun r => s.standInFor (s.convoy p.convoy) l p.stripe r))).length

/-- Extra parity on a quay is given up for stand-ins: its copies stop and its ballast is freed (R166, R179). -/
def State.xparGiveUp (s : State) (l : Nat) : State :=
  let extra := fun (e : (Nat × Nat × Nat × Nat × Nat) × Line) => e.1.2.1 == l && e.1.2.2.2.1 == (s.convoy e.1.1).n
  let gone := (s.xpar.lines.filter (fun e => extra e && e.1.2.2.2.2 == 0)).map (fun e => (e.1.1, l, e.1.2.2.1))
  let s1 := s.modLquay l (fun q => { q with conv := { q.conv with anch := q.conv.anch.filter (fun a => a.cause != .xparity) } })
  { s1 with xpar := { s1.xpar with lines := s1.xpar.lines.filter (fun e => !extra e), stripes := (gone ++ s1.xpar.stripes).eraseDups,
                                   live := s1.xpar.live.filter (fun e => e.2 != l) } }

/-- Room in the ballast of a quay for one more stand-in: where it is short, extra parity goes first (R166, R179, log 81). -/
def State.ballastFor (s : State) (l : Nat) : State × Bool :=
  let room := fun (s : State) => decide (s.ballastUsed l < Config.ballastUnits l)
  if room s then (s, true) else
  let s1 := s.xparGiveUp l
  (s1, room s1)

/-- The roles of a convoy's stripe kept as stand-ins by this device, for displaced quays, and not yet built (R166). -/
def State.standInGo (s : State) : State :=
  foldS s.job.displaced (fun e s =>
    let l := e.2
    if !s.serving l || (s.lquay l).salv.parked then s else
    let todo := fun (s : State) (c : Convoy) (st r : Nat) => !((s.xpar.lines.find (c.idx, l, st, r, 0)).isSome || (r < c.k && !c.present l st r) ||
      (c.presentIdx l st).isEmpty)
    foldS (((List.range 16).map s.convoy).filter (fun c => decide (2 ≤ c.k) && (List.range c.n).any (fun x => c.dev x == e.1))) (fun c s =>
      foldS (List.range (c.stripes l)) (fun st s =>
        foldS ((List.range c.n).filter (fun r => c.dev (c.rolePos st r) == e.1 && s.standInFor c l st r)) (fun r s =>
          if !todo s c st r then s else
          let s := s.salvClaim l
          if !s.hasBerth l .background salvWork || 64 ≤ (s.lquay l).salv.passes.length then s
          else
            let b := s.ballastFor l
            if b.2 then b.1.startPass l c.idx st [r] [] false [] 0 else b.1) s) s) s) s

/-- The pass a message belongs to: one this device runs, or one another standby runs for a stripe in which this one has a piece. -/
def State.passFor (s : State) (l : Nat) (m : SalvMsg) : Option Pass :=
  (s.lquay l).salv.passes.find? (fun p => p.home == m.home && p.no == m.no && p.convoy == m.hd.convoy && p.stripe == m.stripe)

/-- Helper lines (R153, R156, R159): a piece that does not read is left out and the pass repeated; the last piece of a demand
pass decodes its lines. `judge` takes the pieces of an audit (R350). -/
def State.helperIn (s : State) (l : Nat) (m : SalvMsg) (judge : State → Pass → State) : State :=
  match s.passFor l m with
  | none => s.countL l 0x0D 1
  | some p =>
    if p.background && (s.lquay l).salv.parked then s.salvSpool l (.lines s.ident.device m) m else
    let c := s.convoy p.convoy
    let r := c.passRole p.stripe m.pos
    if !p.helpers.contains r then s.countL l 0x0D 1
    else if m.bad && !p.audit then s.passRepeat l p [r]
    else
      let p' := if m.bad then { p with bad := r :: p.bad } else { p with pieces := p.pieces.set r (m.sums.getD 0 []) }
      let s1 := s.modLquay l (fun q => { q with salv := { q.salv with passes := mapIf (fun x => x == p) (fun _ => p') q.salv.passes } })
      if !p.helpers.all (fun x => (p'.pieces.find x).isSome || p'.bad.contains x) then s1
      else if p.audit then judge s1 p'
      else (s1.finishDemand l p').passReleased l p.convoy p.stripe

/-- A chain's sums at a standby (R157): its piece is rebuilt, and what was held for the pass goes on. A failed access to the berth of the
working set repeats the pass (R312). -/
def State.chainIn (s : State) (l : Nat) (m : SalvMsg) : State :=
  match s.passFor l m with
  | none => s.countL l 0x0D 1
  | some p =>
    if p.background && (s.lquay l).salv.parked then s.salvSpool l (.chain s.ident.device m) m
    else if m.sums.length != p.lost.length then (if p.home == s.ident.device then s.passRepeat l p [] else s)
    else
      let u := s.berthUse l .background salvWork (.access 0 4096)
      if !u.2 then (if p.home == s.ident.device then u.1.passRepeat l p [] else u.1)
      else (u.1.finishChain l p m.sums).passReleased l p.convoy p.stripe

/-- Whether a spooled item carries an old epoch: it is discarded at the merge (R61). -/
def State.spoolOld (s : State) (t : Tx) : Bool := match t with
  | .lines _ m | .chain _ m | .frozenA _ m => decide (m.hd.epoch < s.job.epoch)
  | _ => false

/-- Merge the spool of a resumed quay in order of arrival, items of an old epoch discarded (R60, R61); a pass fenced meanwhile has its
replacement pieces asked for. -/
def State.salvMerge (s : State) (l : Nat) : State :=
  let sp := (s.lquay l).salv.spool
  let s1 := (s.modLquay l (fun q => { q with salv := { q.salv with spool := [] } })).berthFreeWork l .spool spillWork
  (foldS (sp.filter (fun t => !s.spoolOld t)) (fun t s => match t with
    | .lines _ m => s.helperIn l m (fun s _ => s)
    | .chain _ m => s.chainIn l m
    | .frozenA _ m => s.frozenIn l m
    | _ => s) s1).passesAgain l

/-- What salvage of a quay spilled cannot be read back: its passes are repeated (R312). That restarts parking, which after RECOVERY_LIMIT restarts
makes the quay report a fatal internal error (R376, R377). -/
def State.spillFault (s : State) (l : Nat) : State :=
  let n := (s.lquay l).salv.tries
  let r := s.restart ((s.phys l).getD 0) 6 l n
  let s1 := r.1.modLquay l (fun q => { q with salv := { q.salv with tries := n + 1 } })
  let s2 := foldS ((s1.lquay l).salv.passes.filter Pass.background) (fun p s => s.passAgain l p []) s1
  if r.2 then s2.fatalL l else s2

/-- Background salvage of a quay resumes once the berth of its working set is there: what it spilled is restored, then its spool is
merged, then new pieces are asked for (R60). -/
def State.salvResume (s : State) (l : Nat) : State :=
  let work := !(s.lquay l).salv.passes.all (fun p => !p.background) || !(s.lquay l).salv.spool.isEmpty
  let s1 := if work then s.salvClaim l else s
  if work && !s1.hasBerth l .background salvWork then s1 else
  let u := s1.berthUse l .spill spillWork (.access 0 128)
  let s2 := u.1.modLquay l (fun q => { q with salv := { q.salv with parked := false, mark := false, tries := if u.2 then 0 else q.salv.tries } })
  ((if u.2 then s2 else s2.spillFault l).berthFreeWork l .spill spillWork).salvMerge l

/-- Whether a collective holds an SRAM berth of a pool on a quay. -/
def State.collHolds (s : State) (l pool : Nat) : Bool :=
  (s.lquay l).pools.live.any (fun b => (b.owner == .accum || b.owner == .staging) && b.pool == pool && !b.mem)

/-- What a higher class parked resumes once no collective holds such berths there, unless a park manifest marked it (R57). -/
def State.classGo (s : State) : State :=
  if s.quiet then s else
  let s1 := foldS s.lquays (fun l s => if (s.lquay l).salv.parked && !(s.lquay l).salv.mark && !s.collHolds l 5 then s.salvResume l else s) s
  if s1.lquays.any (fun l => s1.collHolds l 4) then s1 else s1.modFlush (fun f => if f.mark then f else { f with parked := false })

/-! ## Declaring a quay failed (R162) -/

/-- The quay that makes a declaration: logical quay 0, or for logical quay 0 the quay of the lowest other index. -/
def State.declarer (s : State) (l : Nat) : Nat :=
  if l == 0 then ((s.lquays.find? (fun x => x != 0)).bind s.phys).getD 0 else s.q0

/-- The ring of position `l` is lost, where that ring lies there: RING_UNAVAILABLE, and no manifest of it acts any more, those held included
(R45). -/
def State.manRingLost (s : State) (d l : Nat) (host : Bool) : State :=
  let x := if host then s.man.host else s.man.verdict
  if x.unavail || s.param? s.q0 (if host then .hostRingQuay else .verdictRingQuay) != some l then s else
  let held := s.man.held.filter (fun h => h.ring == host)
  let asked := s.man.asked.filter (fun e => (manType e.toNat == 3) == host)
  let s1 := { s with man := { s.man with held := held, asked := asked } }
  State.evQ (if host then { s1 with man := { s1.man with host := { x with unavail := true } } }
    else { s1 with man := { s1.man with verdict := { x with unavail := true } } }) d .ringUnavailable [(8, b2n (!host))]

/-- Without a relief quay the channels leave service: displacement notices, the rings of that position, the requests that wait
(R20, R45, R166, R371). DESIGN CHOICE (log 106): stand-in holders are told as well as the members, and the standbys of the roster, which are to
salvage from the stand-ins. -/
def State.lostNoRelief (s : State) (l : Nat) : State :=
  let d := s.declarer l
  let s1 := s.evQ d .quayLostNoRelief [(8, l)]
  let s2 := { s1 with refr := { s1.refr with running := s1.refr.running.filter (fun x => x.pos != l), resync := s1.refr.resync.filter (fun x => x.pos != l),
                                             toStage := s1.refr.toStage.filter (fun e => e.1 != l) },
                      job := { s1.job with displaced := if s.jobOn then (s.ident.device, l) :: s1.job.displaced else s1.job.displaced } }
  let out := (s.lquays.find? (fun x => x != l)).getD 0
  let devs := (s.convoys.flatMap (fun c => (s.otherPos c).map c.dev ++ (List.range c.n).map (s.convoy c.xp).dev) ++
    (s.job.roster.filter (fun e => e.2 == 2)).map (·.1)).eraseDups.filter
    (fun x => x != s.ident.device && x != 0xFFFFF)
  let s3 := if s.jobOn then foldS devs (fun x s => s.sendFence out x (s.fencePkt 4 0 s.ident.device l 0 0 0 0 0 s.tide.now)) s2 else s2
  let s4 := (s3.manRingLost d l true).manRingLost d l false
  let s5 := if l == 0 && s4.ev.reach && !s4.ev.evFail then State.evQ { s4 with ev := { s4.ev with evFail := true, retry := [] } } d .evtPathFail [(40, 0)]
    else { s4 with ev := { s4.ev with retry := if l == 0 then [] else s4.ev.retry } }
  let s5 := if l == 0 then s5.evFlush else s5
  let wait := s5.cpWait.filter (fun e => e.2.pos == l)
  foldS wait (fun e s => s.cpAnswer l e.2.lane e.2.tag 1 0 false false) { s5 with cpWait := s5.cpWait.filter (fun e => e.2.pos != l) }

/-- A failed quay's report of a step whose vote is not cast counts no more: the relief quay reports (R23). -/
def StepRec.unreport (l : Nat) (r : StepRec) : StepRec :=
  if r.state == .opened || r.state == .closed then { r with sealedBy := r.sealedBy.filter (· ≠ l) } else r

/-- The answers a replay batch still waited for are lost with the quay (R128). -/
def Seg.lost (g : Seg) : Seg := { g with left := 0 }

/-- The shares of a quay that is gone end, and their steps are to abort (R191, R204). R204 speaks of a running bucket: DESIGN CHOICE, unsafe
(log 120), a share that waits to be admitted goes with the quay as well, since its lines would stay untouched. -/
def State.sharesLost (s : State) (l : Nat) : State :=
  let gone := s.opt.shares.filter (fun b => b.pos == l)
  foldS ((gone.map (·.step)).eraseDups) (fun n s => s.requestAbort n) { s with opt := { s.opt with shares := s.opt.shares.filter (fun b => b.pos != l) } }

/-- A warm restart asked for, and not yet begun, is refused once physical quay 0, which alone reads the charter, has failed (R19). -/
def State.warmLost (s : State) (p : Nat) : State :=
  if p == 0 && s.boot.warmReq then State.evQ { s with boot := { s.boot with warmReq := false } } (s.declarer 0) .charterPortUnavailable else s

/-- A quay in service, or under relief, is declared failed (R162, R164): cut off and logged once; what it had outstanding is lost
and its requesters see a failure status; a flip in progress starts again (R297); its relief begins, or R166 applies. `logged`: QUAY_FAILED was announced with a fault
signature. -/
def State.failQuay (s : State) (p : Nat) (logged : Bool) : State :=
  let q := s.quay p
  match s.reliefs.find? (fun r => r.p == p) with
  | some r =>
    let s1 := (s.setQuay p { failed := true, fatal := 2, was := some r.lq, qcfg := r.old.qcfg, params := r.old.params }).sharesLost r.lq
    let s2 := if logged then s1 else s1.evQ (s1.declarer r.lq) .quayFailed [(8, p)]
    State.lostNoRelief { s2 with reliefs := s2.reliefs.filter (· ≠ r) } r.lq
  | none =>
    if q.failed || !q.inService then s else
    let l := q.lq.getD 0
    let s1 := foldS q.rmt.oot (fun o s => s.rmtEnd l o (if o.kind == 1 then 6 else 5)) s
    let s2 := foldS q.ops (fun o s => match o.src with
      | .cp lane tag => s.cpAnswer l lane tag 1 0 false false
      | _ => s) s1
    let open_ := (q.pools.live.filter (fun b => [.accum, .staging, .chunk, .relay].contains b.owner || ([.spill, .spool].contains b.owner && b.work != spillWork))).map (fun b => b.owner.piece b.work)
    let s3 := foldS (q.conv.heldL.filter (fun h => h.why == .berth)) (fun h s => s.rxReturn l h.frame) s2
    let s4 := foldS (q.rmt.held.map (·.frame)).eraseDups (fun f s => s.rxReturn l f) s3
    let s5 := s4.setQuay p { failed := true, fatal := 2, was := some l, qcfg := q.qcfg, params := q.params }
    let rp := s5.freeRelief (s5.die p)
    let d := s5.declarer l
    let s6 := if logged then s5 else s5.evQ d .quayFailed ((8, p) :: (rp.map (fun r => (8, r))).toList)
    let s7 := ((if open_.isEmpty then s6 else s6.ringAll d 3 (.collsOpen l)).abortWhere (fun c => open_.contains c.l.cseq) 5).nwLost
    let redo := (q.ops.filter (fun o => o.src == .flip)).filterMap (fun o => (s.regionOf l o.addr).bind (fun r => s.layerOf r.tag))
    let s8 := { s7 with steps := { s7.steps with recs := s7.steps.recs.map (StepRec.unreport l) },
                        refr := { s7.refr with running := mapIf (fun x => x.pos == l) (fun x => { x with full := true }) s7.refr.running,
                                               flipped := s7.refr.flipped.filter (fun e => !(e.1.2 == l && redo.contains e.1.1)) } }
    let s9 := s8.sharesLost l
    let s10 := s9.modPort l (fun x => { x with mirrorOk := [], peer := { x.peer with kept := [] }, log := { x.log with segs := x.log.segs.map Seg.lost } })
    let w := s10.tide.now / 2 ^ max (s10.hpar .lockP) 12
    let s10 := if l == 0 then { s10 with ev := { s10.ev with retry := [], told := [], gapSent := none } } else s10
    let s11 := { s10 with lock := { s10.lock with partialW := w :: s10.lock.partialW.filter (· ≠ w) } }.warmLost p
    match rp with
    | some r => State.ringSend { s11 with reliefs := s11.reliefs ++ [{ p := r, failed := p, lq := l, st := .switching, since := s11.clock, old := q }] } d r 3 (.handover l)
    | none => s11.lostNoRelief l

/-- Declare every quay that reported a fatal internal error (R162). -/
def State.fatalGo (s : State) : State :=
  foldS s.physAll (fun p s => if (s.quay p).fatal != 0 && !(s.quay p).failed then s.failQuay p ((s.quay p).fatal == 2) else s) s

/-! ## Relief (R95, R163, R164) -/

/-- The line entries of a position's retained segments that no close record covers and that are not void. -/
def Log.uncovered (g : Log) : List (LogEntry × Nat × Nat × Nat × Line) :=
  let cov := g.entries.flatMap (fun e => match e.body with
    | .close c => c.loffs.map (·.2)
    | _ => [])
  g.entries.filterMap (fun e => match e.body with
    | .line u ln c d false => if cov.contains e.off then none else some (e, u, ln, c, d)
    | _ => none)

/-- The line entry of a write that was logged and never issued is made void at a relief, its share of the digest taken back (R131, log 26). -/
def State.voidLogged (s : State) (l : Nat) (o : Op) : State :=
  match (s.port l).log.entries.find? (fun e => e.off == o.off) with
  | some ⟨_, _, _, _, .line _ _ _ d false⟩ =>
    (s.logRewrite l o.off (fun b => match b with
      | .line u ln c d _ => .line u ln c d true
      | b => b)).digestAdd l (o.step.getD 0) o.addr d true
  | _ => s

/-- Where a stream goes on after a relief: one above the highest LSEQ to its device in the close records, and of the vote lighters in
flight, which have none; without any, where it stood (R95, log 79). -/
def OutStream.resumed (o : OutStream) (xs : List Seq) : OutStream :=
  let top := xs.foldl (fun (a : Option Seq) x => match a with
    | some y => if Seq.later x y then some x else a
    | none => some x) none
  { o with next := (top.map (· + 1)).getD o.next, frozen := false, touts := 0 }

/-- The sending side after a relief (R95): lighters of the in-flight list with a close record are sent again with RELIEF = 1,
those without one and uncovered lines are assembled anew, and the streams go on. Before that the shadow entries of uncovered lines are
computed from memory (R331). -/
def State.reliefSend (s : State) (l : Nat) (old : Quay) : State :=
  let s1 := foldS (old.ops.filter (fun o => o.stage == .logging && o.step.isSome)) (fun o s => s.voidLogged l o) s
  let un := (s1.port l).log.uncovered
  let s2 := foldS un (fun e s => match (s.lquay l).addrOfUnit e.2.1 with
    | none => s
    | some a => match s.dataShadow l (a + 128 * e.2.2.1) with
      | none => s
      | some sh => s.shadowPut l sh e.2.2.1 (lineCrc (s.getLine l (a + 128 * e.2.2.1)))) s1
  let recs := (s2.port l).log.entries.filterMap (fun e => match e.body with
    | .close c => some c
    | _ => none)
  let votes := (old.conv.sent.filter (fun g => !g.isDelta)).flatMap (·.copies)
  let next := fun (d : Nat) (o : OutStream) =>
    o.resumed (recs.flatMap (fun c => ((c.dpos.zip c.lseqs).filter (fun y => s2.copyDev (s2.convoy c.convoy) l c.stripe y.1 == d)).filterMap (·.2)) ++
      (votes.filter (fun c => c.dev == d && c.numbered)).map (·.lseq))
  let again := fun (c : Copy) => { c with since := none, tries := 0, ahead := false, st := if c.st == .retired then .sent else c.st }
  let keep := (old.conv.sent.filter (fun g => !g.waitRec)).map (fun g => { g with relief := true, recorded := true, copies := g.copies.map again })
  let s3 := s2.modLquay l (fun q => { q with conv := { q.conv with sent := keep, outS := old.conv.outS.map (fun e => (e.1, next e.1 e.2)),
                                                                   nextId := old.conv.nextId } })
  let s4 := foldS keep (fun g s => foldS (g.copies.filter (fun c => c.st == .sent)) (fun c s => s.sendCopy l g c .again) s) s3
  let opens := un.foldl (fun (a : List OpenL) e =>
    let x : LLine := { l := e.2.2.1, delta := e.2.2.2.2, off := e.1.off }
    if a.any (fun o => o.unit == e.2.1 && o.step == e.1.step && !o.lines.any (fun y => y.l == x.l)) then
      mapIf (fun o => o.unit == e.2.1 && o.step == e.1.step && !o.lines.any (fun y => y.l == x.l)) (fun o => { o with lines := o.lines ++ [x] }) a
    else a ++ [{ id := old.conv.nextId + a.length, convoy := e.2.2.2.1, unit := e.2.1, step := e.1.step, first := s.clock, lines := [x] }]) []
  let s5 := foldS ((keep.filter (·.isDelta)).map (·.id) ++ opens.map (·.id)) (fun id s => (s.berthAlloc l 3 .lighter id .wait).1)
    (s4.modLquay l (fun q => { q with conv := { q.conv with opened := opens, nextId := q.conv.nextId + opens.length } }))
  (foldS opens (fun o s => s.closeLighter l o (s.liveStep o.step)) s5).assignAll l

/-- The log of a position that comes back from relief follows the steps that started, closed, moored or were aborted meanwhile: segments of
steps that are over are released, one is opened for a step without it, and each takes the state of its step (R100, R109, R122). -/
def State.reliefLog (s : State) (l : Nat) : State :=
  let live := fun (g : Seg) => g.state == 4 || (if g.state == 3 then (s.stepRec g.step).any (fun r => r.state == .aborting) else !s.isMoored g.step)
  let s1 := foldS ((s.port l).log.segs.filter (fun g => !live g)) (fun g s => s.segRelease l g.step (g.state == 3)) s
  foldS s1.steps.recs (fun r s =>
    let s' := if ((s.port l).log.segOf r.no).isSome then s else s.openSeg l r.no
    match r.state with
    | .opened => s'
    | .aborting => if ((s'.port l).log.segOf r.no).any (fun g => g.state == 3) then s' else s'.segState l r.no 3
    | _ => s'.segState l r.no 2) s1

/-- A relief quay enters service (R163): tables and maps taken over, hold and stream table read, lighters sent again, stream
resets and anchorings, QUAY_RELIEVED, and the reports of closed steps on the vote class (R23). -/
def State.reliefService (s : State) (r : Relief) : State :=
  let l := r.lq
  let q := r.old
  let s1 := { s with reliefs := s.reliefs.filter (· ≠ r), hLatch := if l == 0 then [] else s.hLatch }
  let s2 := s1.setQuay r.p { enabled := q.enabled, inService := true, lq := some l, qcfg := q.qcfg, params := q.params, cfgErr := q.cfgErr,
                             chkFail := q.chkFail, salv := { q.salv with passes := [], rebuilt := [], spool := [] } }
  let s4 := (((s2.holdRelief l).rmtRelief l).reliefLog l).reliefSend l q
  let s5 := if s4.job.phase == .ready then s4.resetAll l else s4
  let s6 := foldS q.conv.anch (fun a s => s.startAnchor l a.convoy a.stripe a.j a.cause) s5
  let s7 := foldS (q.ops.filter (fun o => o.src == .group && o.stage != .writing)) (fun o s => s.opSubmit l o.src o.kind o.addr false 0) s6
  let s8 := s7.flushRelief l
  let s8' := if l == 0 then s8.nwRelief.evFlush else s8
  let s9 := (s8'.evQ r.p .quayRelieved [(8, r.failed), (8, r.p)]).ringSend r.p s.q0 3 (.lighters q.conv.sent.length)
  foldS (s9.steps.recs.filter (fun x => x.state == .closed)) (fun x s => s.voteReport l x.no) s9

/-- RELIEF_POWER_GOOD, RELIEF_CROSSBAR_SWITCHED and RELIEF_TABLES_LOADED (R163). -/
def State.reliefStep (s : State) (p : Nat) (at_ : ReliefSt) : State :=
  match s.reliefs.find? (fun r => r.p == p && r.st == at_) with
  | none => s
  | some r => match at_ with
    | .switching => { s with reliefs := mapIf (· == r) (fun r => { r with st := .loading }) s.reliefs }
    | .loading => State.ringSend { s with reliefs := mapIf (· == r) (fun r => { r with st := .resync }) s.reliefs } s.q0 r.p 4 .charter
    | .resync => s.reliefService r
    | _ => s

/-- Whether a device's ballast on a quay is short for the stand-ins and the extra parity that the convoy table gives it there (R166, R179,
log 81). -/
def State.xparShort (s : State) (dev l : Nat) : Bool :=
  let roles := fun (c : Convoy) (st : Nat) => ((List.range c.n).filter (fun r => s.job.displaced.contains (c.dev (c.rolePos st r), l))).length + b2n (decide (c.m ≤ 3))
  let need := (s.convoys.map (fun c => (((List.range (c.stripes l)).filter (fun st => s.partnerDev c st == dev)).map (roles c)).sum)).sum
  decide (Config.ballastUnits l < need)

/-- Copies for extra parity of a quay stop where stand-ins need its holder's ballast (R179); what is unacknowledged of them is sealed. -/
def State.xparStop (s : State) (l : Nat) : State :=
  let stop := fun (dev : Nat) => s.xparShort dev l
  let devs := (((s.xpar.send.filter (fun e => e.2.1 == l)).map (fun e => s.partnerDev (s.convoy e.1) e.2.2)).eraseDups).filter stop
  let s1 := { s with xpar := { s.xpar with send := s.xpar.send.filter (fun e => !(e.2.1 == l && devs.contains (s.partnerDev (s.convoy e.1) e.2.2))) } }
  s1.modLquay l (fun q => { q with conv := { q.conv with sent := q.conv.sent.map (fun g =>
    { g with copies := mapIf (fun c => c.dpos == 0x3F && devs.contains c.dev) (fun c => { c with st := .acked }) g.copies }) } })

/-- A displacement notice (R166): copies for the position and quay go to the stand-in holders, those still unacknowledged
under a new LSEQ of that stream. -/
def State.displaceIn (s : State) (f : Frame) : State :=
  let e := (fld f.pkt 115 96, byt f.pkt 15 15)
  if s.job.displaced.contains e then s else
  let s0 := { s with job := { s.job with displaced := e :: s.job.displaced } }
  let s1 := s0.xparStop e.2
  let f := fun (g : Lighter) (c : Copy) =>
    if g.isDelta && (c.st == .waiting || c.st == .sent) && c.dev == e.1 && c.dpos != 0x3F then
      { c with dev := s1.partnerDev (s1.convoy g.convoy) g.stripe, st := .waiting, since := none } else c
  s1.modLquay e.2 (fun q => { q with conv := { q.conv with sent := q.conv.sent.map (fun g => { g with copies := g.copies.map (f g) }) } })

/-! ## Grades and extra parity (R177 to R179) -/

/-- What the grade takes off the known-answer and cold-flush exponents (R177). -/
def gradeKat (g : Nat) : Nat := [0, 1, 2, 3, 4, 5, 6, 8].getD g 0
def gradeFlush (g : Nat) : Nat := [0, 0, 1, 1, 2, 3, 4, 5].getD g 0

/-- Drop extra parity: its copies stop and its ballast is freed (R179). -/
def State.xparDrop (s : State) : State :=
  let seal1 := fun (g : Lighter) => { g with copies := mapIf (fun c => c.dpos == 0x3F) (fun c => { c with st := .acked }) g.copies }
  let s1 := foldS s.lquays (fun l s => s.modLquay l (fun q =>
    { q with conv := { q.conv with anch := q.conv.anch.filter (fun a => a.cause != .xparity), sent := q.conv.sent.map seal1 } })) s
  { s1 with xpar := { s1.xpar with building := false, stripes := [], send := [], live := [], lines := s1.xpar.lines.filter (fun e => e.1.2.2.2.1 != (s1.convoy e.1.1).n) } }

/-- A grade comes into force (R178). -/
def State.setGrade (s : State) (g : Nat) : State :=
  if g == s.grade.eff then s else
  let e := Evt.gradeChange
  let s1 := { s with grade := { eff := g } }
  let s2 := s1.evRaise s1.q0 s1.q0 e (if g == 7 then 3 else 1) (packArgs [(3, s.grade.eff), (3, g)]).1 0
  if g < 5 && 5 ≤ s.grade.eff then s2.xparDrop else s2

/-- At a manifest scan: a higher grade takes effect; a lower one starts to be held (R178). -/
def State.gradeScan (s : State) : State :=
  let g := if s.sb.unsettled then 7 else s.sb.gradeIn
  if s.grade.eff < g then s.setGrade g
  else if g == s.grade.eff then { s with grade := { s.grade with lower := none } }
  else match s.grade.lower with
    | some (x, _) => if x == g then s else { s with grade := { s.grade with lower := some (g, s.clock) } }
    | none => { s with grade := { s.grade with lower := some (g, s.clock) } }

/-- GRADE_HOLD_EXPIRY: a lower grade has been held for GRADE_HOLD (R178); an input that no longer is that grade has not been held lower. -/
def State.gradeHold (s : State) : State :=
  match s.grade.lower with
  | some (g, t) =>
    if !s.passed t (s.hpar .gradeHold) then s
    else if (if s.sb.unsettled then 7 else s.sb.gradeIn) == g then s.setGrade g
    else
      let x := if s.sb.unsettled then 7 else s.sb.gradeIn
      { s with grade := { s.grade with lower := if x < s.grade.eff then some (x, s.clock) else none } }
  | none => s

/-- The convoys whose extra parity this device holds on: those with M ≤ 3 whose partner convoy it is a member of. -/
def State.xparConvoys (s : State) : List Convoy :=
  ((List.range 16).map s.convoy).filter (fun c => decide (2 ≤ c.k) && decide (c.m ≤ 3) && s.convoys.any (fun x => x.idx == c.xp && x.n == c.n))

/-- The stripes whose extra parity this device holds: convoy, quay and stripe (R179). -/
def State.xparStripes (s : State) : List (Convoy × Nat × Nat) :=
  s.xparConvoys.flatMap (fun c => s.lquays.flatMap (fun l => ((List.range (c.stripes l)).filter
    (fun st => s.partnerDev c st == s.ident.device && !(c.presentIdx l st).isEmpty)).map (fun st => (c, l, st))))

/-- Build the extra parity from grade 5 on, and report it live once every stripe is anchored (R179). -/
def State.xparGo (s : State) : State :=
  if s.grade.eff < 5 || s.job.phase != .ready || s.ident.gen then s
  else if !s.xpar.building then
    let s1 := { s with xpar := { s.xpar with building := true } }
    foldS s1.xparStripes (fun e s => s.startAnchor e.2.1 e.1.idx e.2.2 e.1.m .xparity) s1
  else if s.xpar.live.isEmpty && s.xpar.stripes.isEmpty && !s.xparConvoys.isEmpty &&
      s.xparStripes.all (fun e => (s.xpar.lines.find (e.1.idx, e.2.1, e.2.2, e.1.n, 0)).isSome) then
    State.evH { s with xpar := { s.xpar with live := s.xparConvoys.flatMap (fun c => s.lquays.map (fun l => (c.idx, l))) } } .xparityLive []
  else s

end Sys2Proof.Machine
end

