-- ==== Sys2Proof/Machine/Charter.lean ====
section
/-! DEFINITION. The charter image (R383 to R393), start-up (R394 to R396) and warm restart (R397, R398). -/

namespace Sys2Proof.Machine

/-- A section directory entry (R388). -/
structure ChSec where
  kind   : Nat
  qscope : Nat
  rsvd   : Nat
  slen   : Nat
  soff   : Nat
  scrc   : Nat
  deriving DecidableEq, Repr

/-- Whether an SPI NOR device is one the harbour master uses (R384): its SFDP signature, and 128 Mbit at least. DEDUCED (log 116): a smaller one
counts as absent, as one with another signature does. -/
def SpiNor.usable (d : SpiNor) : Bool := d.sig == 0x50444653 && decide (128 ≤ d.mbit)

/-- How the device is read (R384): 3 in 1-4-4, 2 in 1-1-4, 1 in 1-1-1, and in 1-1-1 where a named quad-enable bit is clear. -/
def SpiNor.mode (d : SpiNor) : Nat :=
  if d.quad == some false then 1 else if d.io144 then 3 else if d.io114 then 2 else 1

/-- The SPI NOR device used, where one is. -/
def chSpi (ch : CharterPort) : Option SpiNor := ch.spi.filter SpiNor.usable

/-- What answers on the charter port: SPI NOR is probed first, then I2C (R384, R385). -/
def chKind (ch : CharterPort) : ChKind := if (chSpi ch).isSome then .spi else if ch.i2c then .i2c else .none

/-- Bytes a copy may have on the memory that answers (R384, R385). -/
def copyLimit : ChKind → Nat
  | .spi => 2 ^ 23
  | .i2c => 2 ^ 15
  | .none => 0

/-- `n` bytes of a copy at an offset. -/
def copyBytes (v off n : Nat) : Nat := (v >>> (8 * off)) % 2 ^ (8 * n)

/-- The section directory of a copy. -/
def charterSecs (v : Nat) : List ChSec :=
  (List.range (byt v 17 16)).map (fun i =>
    let e := copyBytes v (128 + 16 * i) 16
    { kind := byt e 1 0, qscope := byt e 2 2, rsvd := byt e 3 3, slen := byt e 7 4, soff := byt e 11 8, scrc := byt e 15 12 })

/-- Whether a header passes R387 and R392. -/
def charterHead (lim v : Nat) : Bool :=
  let len := byt v 11 8
  byt v 3 0 == 0x52544843 && byt v 5 4 == 3 && byt v 7 6 ≤ 1 && 128 ≤ len && len ≤ lim && len % 128 == 0 &&
  1 ≤ byt v 17 16 && byt v 17 16 ≤ 256 && byt v 19 18 == 0 && fld v 183 180 == 0 && fld v 179 160 != 0xFFFFF &&
  byt v 23 23 ≤ 1 && byt v 47 40 == 0 && byt v 123 52 == 0 && byt v 127 124 == crcOf 124 v

/-- Whether a kind may have a scope (R388). -/
def secScope (kind qscope : Nat) : Bool :=
  let harbour := qscope == 0xFF
  let quay := decide (qscope ≤ 15)
  if kind == 2 || kind == 11 then harbour || quay else if kind == 3 then quay else harbour

/-- The sections that hold a table, each at most once for a scope (R388). -/
def tableKind (k : Nat) : Bool := decide (3 ≤ k) && decide (k ≤ 10)

/-- Whether the sections of a copy are well formed and match their check values; a section of a kind or scope the table does
not list, or a table given twice, makes the copy invalid (R386, R388, R392, log 27). -/
def charterBody (v : Nat) : Bool :=
  let len := byt v 11 8
  let ss := charterSecs v
  crc32c (bytesOf (len - 128) (copyBytes v 128 (len - 128))) == byt v 51 48 &&
  ss.all (fun x => x.rsvd == 0 && 1 ≤ x.kind && x.kind ≤ 11 && secScope x.kind x.qscope && x.soff % 128 == 0 && decide (x.soff + x.slen ≤ len) &&
    crc32c (bytesOf x.slen (copyBytes v x.soff x.slen)) == x.scrc &&
    (!tableKind x.kind || (ss.filter (fun y => y.kind == x.kind && y.qscope == x.qscope)).length == 1))

/-- Whether a copy is valid (R386). -/
def copyValid (lim v : Nat) : Bool := charterHead lim v && charterBody v

/-- The copy in use: true for B, its image, and whether the other is valid too (R386). -/
def charterPick (ch : CharterPort) : Option (Bool × Nat × Bool) :=
  let a := copyValid (copyLimit (chKind ch)) ch.copyA
  let b := copyValid (copyLimit (chKind ch)) ch.copyB
  let later := Seq.later (BitVec.ofNat 32 (byt ch.copyB 15 12)) (BitVec.ofNat 32 (byt ch.copyA 15 12))
  if a && b then some (if later then (true, ch.copyB, true) else (false, ch.copyA, true))
  else if a then some (false, ch.copyA, false)
  else if b then some (true, ch.copyB, false)
  else none

/-! ## Configuration images -/

/-- The writable bits of a word of the harbour's images (R480 to R485). -/
def hMask (off : Nat) : Nat :=
  let w := off % 16 / 4
  if off == 0xA0 then 0xFF
  else if 0x1000 ≤ off && off < 0x1100 then [0xFF800000, 0x0FFFFFFF, 0x0FFFFFFF, 0].getD w 0
  else if 0x1100 ≤ off && off < 0x1180 then [0xFFFFFFF0, 0xFFFF].getD (w % 2) 0
  else if 0x1200 ≤ off && off < 0x1600 then 0xFFFFFFFF
  else if 0x1800 ≤ off && off < 0x1FF8 then [0xFFFFFFFF, 0xFFFF].getD (w % 2) 0
  else if 0x2000 ≤ off && off < 0x3000 then [0xFFFFFFF8, 0xFFF, 0xFFFFFFFF, 0xFF].getD w 0
  else if 0x4000 ≤ off && off < 0x6000 then
    let x := (off - 0x4000) % 512 / 4
    if x == 0 then 0xFFFFE000 else if x ≤ 34 then 0xFFFFF else if x ≤ 50 then 0x3FFFFFF else if x ≤ 82 then 0xFFFFFFF else 0
  else 0

/-- The writable bits of a word of a region table (R488). -/
def qMask (off : Nat) : Nat :=
  if 0x1000 ≤ off && off < 0x2000 then [0xFFFFFFFF, 0xFFFFFFFF, 0xFFFFE000, 0].getD (off % 16 / 4) 0 else 0

/-- Whether a word has no reserved bit set; CDIGEST is computed and not reserved. -/
def wordClean (mask : Nat → Nat) (off x : Nat) : Bool :=
  x &&& mask off == x || (0x4000 ≤ off && (off - 0x4000) % 512 == 332)

/-- The words of `n` entries of `wpe` words each from a section, at `base`; the second number counts entries rejected for a
reserved field that is not zero (R9). -/
def tableImage (mask : Nat → Nat) (base wpe n v : Nat) : Tbl Nat Word × Nat :=
  let es := (List.range n).map (fun i => (List.range wpe).map (fun j => (base + 4 * (wpe * i + j), copyBytes v (4 * (wpe * i + j)) 4)))
  let good := es.filter (fun e => e.all (fun x => wordClean mask x.1 x.2))
  (good.flatMap (fun e => e.map (fun x => (x.1, BitVec.ofNat 32 (x.2 &&& mask x.1)))), es.length - good.length)

/-- The section of a kind and scope. -/
def secOf (v kind qscope : Nat) : Option ChSec := (charterSecs v).find? (fun x => x.kind == kind && x.qscope == qscope)

/-- Its content, 0 where it is absent. -/
def secData (v kind qscope : Nat) : Nat :=
  match secOf v kind qscope with
  | some x => copyBytes v x.soff x.slen
  | none => 0

/-- The replica count of a copy (R405). -/
def secReplicas (v : Nat) : Nat :=
  match secOf v 9 0xFF with
  | some x => min (x.slen / 8) 255
  | none => 1

/-- The images of the harbour's tables, and how many entries were rejected. -/
def harbourImage (v : Nat) : Tbl Nat Word × Nat :=
  let at_ := fun base wpe n kind => tableImage hMask base wpe n (secData v kind 0xFF)
  let parts := [at_ 0x1000 4 16 5, at_ 0x1100 2 16 7, at_ 0x1200 1 128 8, at_ 0x1400 1 128 10, at_ 0x2000 4 256 6] ++
    [tableImage hMask 0x1800 2 (if (secOf v 9 0xFF).isSome then secReplicas v else 0) (secData v 9 0xFF)] ++
    [if (secOf v 4 0xFF).isSome then at_ 0x4000 128 16 4 else ([], 0)]
  (((0xA0, BitVec.ofNat 32 (secReplicas v)) :: parts.flatMap (·.1)).filter (fun e => e.2 != hwReset e.1), parts.foldl (fun a x => a + x.2) 0)

/-- A quay's region table. -/
def regionImage (v q : Nat) : Tbl Nat Word × Nat :=
  let r := tableImage qMask 0x1000 4 256 (secData v 3 q)
  (r.1.filter (fun e => e.2 != 0), r.2)

/-! ## Parameters (R389 to R391) -/

/-- Every KEY with its parameter. -/
def paramKeys : List (Nat × Param) := allParams.map (fun e => (keyOf e.2, e.1))

/-- The parameter records of a section: KEY, reserved bytes, VALUE (R389). -/
def paramRecs (v : Nat) (x : ChSec) : List (Nat × Nat × Nat) :=
  (List.range (x.slen / 16)).map (fun i =>
    let e := copyBytes v (x.soff + 16 * i) 16
    (byt e 3 0, byt e 7 4, byt e 15 8))

/-- The PARAM sections of a scope, records with a non-zero reserved field left out, and how many those are (R9). -/
def paramSecs (v scope : Nat) : List (List (Nat × Nat)) × Nat :=
  let all := ((charterSecs v).filter (fun x => x.kind == 2 && x.qscope == scope)).map (paramRecs v)
  (all.map (fun rs => (rs.filter (fun r => r.2.1 == 0)).map (fun r => (r.1, r.2.2))),
   all.foldl (fun a rs => a + (rs.filter (fun r => r.2.1 != 0)).length) 0)

/-- The KEYs that release 3.1 does not define, or that one section gives twice (R390), each once. -/
def keyErr (keys : List (Nat × Param)) (secs : List (List (Nat × Nat))) : List Nat :=
  (secs.flatMap (fun rs => (rs.filter (fun r => !keys.any (fun e => e.1 == r.1) || 1 < (rs.filter (fun y => y.1 == r.1)).length)).map (·.1))).eraseDups

/-- The function and profile of the PROFILE entries, without the reserved ones, and how many were rejected. R391 does not say how an unused
one of the 16 is written: DESIGN CHOICE, unsafe (log 85), an entry of zeros is unused and not rejected. -/
def profileEnts (v : Nat) : List (Nat × Nat) × Nat :=
  let d := secData v 1 0xFF
  let es := ((List.range 16).map (fun i => (byt d (2 * i) (2 * i), byt d (2 * i + 1) (2 * i + 1)))).filter (fun e => e != (0, 0))
  let ok := es.filter (fun e => 1 ≤ e.1 && e.1 ≤ 8 && e.2 ≤ 2)
  (ok, es.length - ok.length)

/-- The values a charter sets on the quay that takes the sections of scope `q`, lowest precedence first (R390). -/
def resolveParams (keys : List (Nat × Param)) (v q : Nat) : Tbl Param PVal :=
  let prof := (profileEnts v).1.reverse.flatMap (fun e => (profileTable.filter (fun t => t.1 == e.1 && t.2.1 == e.2)).map
    (fun t => (t.2.2.1, ({ val := t.2.2.2, src := .profile } : PVal))))
  let recs := fun (scope : Nat) (src : PSource) => (paramSecs v scope).1.flatten.reverse.filterMap (fun r =>
    (keys.find? (fun e => e.1 == r.1)).map (fun e => (e.2, ({ val := r.2, src := src } : PVal))))
  (prof ++ recs 0xFF .harbour ++ recs q .quay).foldl (fun t e => t.set e.1 e.2) []

/-! ## Start-up (R394 to R396) -/

/-- FORMAT_ERROR, once for each record of the charter rejected (R9). -/
def State.charterFormat (s : State) (p : Nat) : Nat → State
  | 0 => s
  | n + 1 => (s.evQ p .formatError).charterFormat p n

/-- Start-up ends in FAILED (R395, R396). -/
def State.bootFail (s : State) (err : Nat) : State := { s with boot := { s.boot with phase := 6, error := err } }

/-- A quay found bad at stage 3 is declared failed, and a free relief quay of its die takes its logical index at once
(R15, R163). -/
def State.bootReplace (s : State) (l p : Nat) : State :=
  let s1 := s.setQuay p { failed := true, fatal := 2 }
  let rp := s1.freeRelief (s1.die p)
  let s2 := s1.evQ 0 .quayFailed ((8, p) :: (rp.map (fun r => (8, r))).toList)
  match rp with
  | some r => (s2.modQuay r (fun q => { q with inService := true, lq := some l })).evQ r .quayRelieved [(8, p), (8, r)]
  | none => s2.lostNoRelief l

/-- Stage 3: every active quay that is sound enters service; those of `bad` are replaced. -/
def State.bootQuays (s : State) (bad : List Nat) : State :=
  let s0 := foldS (bad.filter (fun p => decide (16 ≤ p) && !(s.quay p).inService)) (fun p s => s.modQuay p (fun q => { q with failed := true })) s
  foldS (List.range s.fit.nActive) (fun l s =>
    let p := (s.phys l).getD l
    if (s.quay p).failed then s
    else if bad.contains p then s.bootReplace l p
    else s.modQuay p (fun q => { q with inService := true, lq := some l })) s0

/-- Stage 4: sections and resolved parameters reach the configuration registers of every quay in service, from the harbour master over the
control class (R388, R390, R394). -/
def State.distribute (s : State) (v : Nat) : State :=
  let keys := paramKeys
  let h := harbourImage v
  let s1 := State.charterFormat { s with hcfg := h.1 } 0 (h.2 + (profileEnts v).2 + (paramSecs v 0xFF).2)
  foldS s1.physIn (fun p s =>
    let q := s.lqOf p
    let r := regionImage v q
    let secs := paramSecs v q
    let s' := s.modQuay p (fun x => { x with qcfg := r.1, params := resolveParams keys v q, paramKey := 0, paramHi := none,
                                             cfgErr := (keyErr keys secs.1 ++ keyErr keys (paramSecs v 0xFF).1).eraseDups })
    (s'.charterFormat p (r.2 + secs.2)).ringSend 0 p 4 .charter) s1

/-- The control lines of memory a quay owns, once it is enabled: ring consumer lines, the event ring's producer line, and
stream-table records free (R394 stage 5). -/
def State.initLines (s : State) (l : Nat) : State :=
  let s1 := (s.modLquay l (fun q => { q with rmt := { q.rmt with recs := [] } })).zeroArea l (s.lpar l .rmtTabBase) (s.lpar l .rmtStreams * 32)
  let s2 := if s1.hpar .hostRingQuay == l then s1.ownWrite l (s1.hpar .hostRingBase + 128) 128 0 else s1
  let s3 := if s2.hpar .verdictRingQuay == l then s2.ownWrite l (s2.hpar .verdictRingBase + 128) 128 0 else s2
  if l == 0 then s3.evReach else s3

/-- The rings whose quay is not in service when their place becomes known are lost (R20, R45). -/
def State.ringsLost (s : State) : State :=
  foldS [true, false] (fun host s => let l := s.hpar (if host then .hostRingQuay else .verdictRingQuay)
    if (s.phys l).isSome || s.reliefs.any (fun r => r.lq == l) then s else s.manRingLost s.q0 l host) s

/-- Stage 5: every quay in service is enabled, its checks run, and its lines are initialised; PHASE is ENABLE until the next manifest scan tide,
and one that stays disabled ends start-up in FAILED (R394, R396). -/
def State.bootEnable (s : State) : State :=
  let s1 := foldS s.physIn (fun p s => s.enableQuay p) s
  let s2 := foldS s1.lquays (fun l s => if (s.lquay l).enabled then s.initLines l else s) s1
  if s2.physIn.all (fun p => (s2.quay p).enabled) then { s2 with boot := { s2.boot with phase := 4, error := 0 } } else s2.bootFail 3

/-- The sequence of R394 from stage 1. A warm restart runs it without reset (R397), and starts CONS and REJECTED of the rings again at 0:
DESIGN CHOICE, unsafe (log 86). -/
def State.bootRun (s : State) (ch : CharterPort) (bad : List Nat) : State :=
  let src := match chKind ch with
    | .none => 0
    | .spi => 1
    | .i2c => 2
  let s0 := { s with boot := { phase := 3, source := src, readMode := ((chSpi ch).map SpiNor.mode).getD 0 }, man := {}, ev := { s.ev with reach := false } }
  if src == 0 then s0.bootFail 1 else
  match charterPick ch with
  | none => s0.bootFail 2
  | some (b, v, other) =>
    let s1 := { s0 with boot := { s0.boot with copy := b2n b, otherOk := other, gen := byt v 15 12 % 65536, genFull := byt v 15 12 },
                        ident := { device := fld v 179 160, uid := byt v 31 24, gen := byt v 23 23 == 1 },
                        crw := { s0.crw with kind := chKind ch, erase := (chSpi ch).bind (·.erase) } }
    if bad.contains 0 || (s1.quay 0).failed then (s1.bootQuays bad).bootFail 4
    else ((s1.bootQuays bad).distribute v).ringsLost.bootEnable

/-- What stage 1 of start-up logs: the return of the supply, from Off, whose code the manual does not give, to Run (R423), and in Open SEC_OPEN
(R420). -/
def State.startLog (s : State) : State :=
  let r := s.takeFree
  let s1 := if s.pwr.restored then State.evH { r.2 with pwr := { s.pwr with restored := false } } .pwrState [(2, r.1 % 4), (2, 0), (8, r.1 / 4 % 256)] else s
  if s.sec.state == .opened then s1.evH .secOpen else s1

/-- START_UP: from the first tide count accepted after reset (R394). -/
def State.startUp (s : State) (ch : CharterPort) (bad : List Nat) : State :=
  if s.boot.phase != 1 || !s.tide.started || s.pwr.off then s else s.startLog.bootRun ch bad

/-- A warm restart begins at a manifest scan tide: every quay is disabled, its berths freed, the configuration of the
old copy gone, and PHASE is WARM (R398). -/
def State.warmBegin (s : State) : State :=
  let s1 := foldS s.physIn (fun p s => s.disableQuay p) s
  let s2 := foldS s1.physIn (fun p s => s.modQuay p (fun q => { q with qcfg := [], params := [], cfgErr := [], chkFail := false })) s1
  { s2 with hcfg := [], hold := none, locker := { s2.locker with known := false, slots := [], confirmed := none },
            boot := { s2.boot with phase := 7, warmReq := false } }

/-- WARM_RESTART: a restart requested begins, and the sequence of R394 runs again from stage 1 (R398). -/
def State.warmRestart (s : State) (ch : CharterPort) (bad : List Nat) : State :=
  if s.boot.phase == 7 then s.bootRun ch bad else if s.boot.warmReq then s.warmBegin.bootRun ch bad else s

end Sys2Proof.Machine
end

