-- ==== Sys2Proof/Machine/Tide.lean ====
section
/-! DEFINITION. The tide (R33 to R38) and the scheduled events it makes due (R39 to R43). Events that have fired wait in
`man.due` for their commands, in the order of R43 (log 7). -/

namespace Sys2Proof.Machine

/-- A launch held for its tide. -/
def Held.isLaunch (h : Held) : Bool := manType h.entry.toNat == 8

/-- Whether a periodic class of exponent `p` and phase `φ` falls due after tide `a` and up to tide `b` (R40, R41). -/
def falls (p φ a b : Nat) : Bool :=
  let n := 2 ^ p
  decide ((a + n - φ % n) / n < (b + n - φ % n) / n)

/-- The effective exponent of a class the grade shortens, never below 12 (R42, R177). -/
def shortened (p by_ : Nat) : Nat := max (p - by_) 12

/-- The events that fire when the tide goes from `a` to `b`, in the order of R43: in Idle only scans do (R424); with the
harbour not READY nothing but the scan tide itself matters. -/
def State.fired (s : State) (a b : Nat) : List DueEv :=
  let scan := if falls (s.hpar .scanP) (s.hpar .scanPhase) a b then [DueEv.scan] else []
  if s.boot.phase != 5 || s.pwr.state != .run then scan else
  let held := if s.man.held.any (fun h => !h.isLaunch && !h.late && decide (h.effect ≤ b)) then [DueEv.held] else []
  let ls := (s.man.held.filter (fun h => h.isLaunch && decide (h.effect ≤ b))).map (fun h => (h.effect, byt h.entry.toNat 39 36))
  let launches := (sortBy (fun x y => decide (x.1 < y.1) || (x.1 == y.1 && decide (x.2 ≤ y.2))) ls).map (fun x => DueEv.launch x.2)
  let vote := if falls (s.hpar .voteP) (s.hpar .votePhase) a b then [DueEv.vote] else []
  let lock := if falls (s.hpar .lockP) (s.hpar .lockPhase) a b then [DueEv.lock] else []
  let kat := if falls (shortened (s.hpar .katP) (gradeKat s.grade.eff)) (s.hpar .katPhase) a b then [DueEv.kat] else []
  let dredge := (s.lquays.filter (fun l => falls (s.lpar l .dredgeP) (s.lpar l .dredgePhase) a b)).map DueEv.dredge
  let flush := if falls (shortened (s.hpar .flushP) (gradeFlush s.grade.eff)) (s.hpar .flushPhase) a b then [DueEv.flush] else []
  scan ++ held ++ launches ++ vote ++ lock ++ kat ++ dredge ++ flush

/-- Events that have fired join those still waiting; a class that waits already is not entered again (R39). -/
def State.fire (s : State) (a b : Nat) : State :=
  { s with man := { s.man with due := s.man.due ++ (s.fired a b).filter (fun e => !s.man.due.contains e) } }

/-- Launches fired late: passed in a step longer than normal running gives (R39). -/
def State.lateLaunches (s : State) (a b : Nat) : Nat :=
  if b ≤ a + 16 then 0 else (s.man.held.filter (fun h => h.isLaunch && decide (a < h.effect) && decide (h.effect < b))).length

/-- Held manifests passed in such a step fire late. -/
def State.holdMissed (s : State) (a b : Nat) : State :=
  { s with man := { s.man with
      held := mapIf (fun h => decide (a < h.effect) && decide (h.effect < b)) (fun h => { h with missed := true }) s.man.held } }

/-- A tide fault is reported on the control class, and falls in the running lock-step window (R37, R359 FLAGS). -/
def State.faultWin (s : State) : State :=
  let w := s.tide.now / 2 ^ s.hpar .lockP
  State.ringCast { s with tide := { s.tide with faultWins := (w :: s.tide.faultWins.filter (· ≠ w)).take 70 } } 0 4 .tideFault

/-- A count is accepted: it becomes the current tide, from which the estimate starts again, and ends a stall unless it lies more than
TIDE_FWD_LIMIT below the estimated tide (R38, log 99); beyond TIDE_FWD_LIMIT of the current or estimated tide it is a forward jump, whose
size the deadlines move by; events passed fire (R35, R39). -/
def State.tideAccept (s : State) (c : Nat) : State :=
  let a := s.tide.now
  let base := if s.tide.stalled then s.tide.est else a
  let jump := s.tide.holdEntry.isNone && decide (base + s.hpar .tideFwdLimit < c)
  let on := s.tide.stalled && !s.tide.backEp && decide (c + s.hpar .tideFwdLimit < s.tide.est)
  let t1 := { s.tide with now := c, est := c, cyc := 0, stalled := on, backEp := false, lost := on && s.tide.lost, holdEntry := none }
  let t2 := if jump then { t1 with skew := t1.skew + (c - base), jumps := t1.jumps ++ [(c, c - base)] } else t1
  let late := s.lateLaunches a c
  let s1 := { s with tide := t2 }
  let s2 := if jump then s1.faultWin.evH .tideFwd [(64, c - base)] else s1
  let s3 := if late == 0 then s2 else s2.countP s2.q0 0x10 late
  (if c ≤ a + 16 then s3 else s3.holdMissed a c).fire a c

/-- A count below the current tide is not accepted: TIDE_BACK, once in an episode, which runs as a stall (R38). -/
def State.tideBackward (s : State) (c : Nat) : State :=
  if s.tide.backEp then s else
  let t := s.tide
  let s1 := { s with tide := { t with backEp := true, stalled := true, est := if t.stalled then t.est else t.now } }
  s1.faultWin.evH .tideBack [(64, c), (64, t.now)]

/-- TIDE_COUNT: a count is presented with strobe and valid high. In Hold it is ignored (R425). The first one starts the
harbour, whose start-up sequence is then in PROBE; tide faults are not detected before it (R394). -/
def State.tideCount (s : State) (c : Nat) : State :=
  if s.pwr.off || s.pwr.state == .hold then s
  else if !s.tide.started then { s with tide := { s.tide with started := true, now := c, est := c }, boot := { s.boot with phase := 1 } }
  else if c < s.tide.now then s.tideBackward c
  else if s.tide.backEp && c == s.tide.now then s
  else s.tideAccept c

/-- The estimated tide after `cyc` qclk cycles without a count (R37). -/
def State.estimate (s : State) (cyc : Nat) : State :=
  { s with tide := { s.tide with cyc := max cyc s.tide.cyc, est := s.tide.now + max cyc s.tide.cyc * 5 / 9 } }

/-- TIDE_STALL: no count for TIDE_STALL_CYC cycles (R37, R38). An episode that began with a backward jump logs no TIDE_STALL. -/
def State.tideStall (s : State) (cyc : Nat) : State :=
  if !s.tide.started || s.pwr.off || s.pwr.state == .hold || cyc < s.hpar .tideStallCyc then s else
  let s1 := s.estimate cyc
  if s1.tide.stalled then s1 else (State.faultWin { s1 with tide := { s1.tide with stalled := true } }).evH .tideStall

/-- TIDE_LOST: a stall that reaches TIDE_LOSS estimated tides (R38). -/
def State.tideLost (s : State) (cyc : Nat) : State :=
  let s1 := s.tideStall cyc
  if !s1.tide.stalled || s1.tide.lost || s1.tide.est < s1.tide.now + s1.hpar .tideLoss then s1 else
  (State.evH { s1 with tide := { s1.tide with lost := true } } .tideLost).abortWhere (fun _ => true) 6

/-- Whether scheduled events run now: not during a stall (R38), nor in Hold or without supply. -/
def State.eventsRun (s : State) : Bool := !s.tide.stalled && s.pwr.state != .hold && !s.pwr.off

/-- Take an event from the head of the due ones; none while it is not there (R43). -/
def State.takeDue (s : State) (e : DueEv) : Option State :=
  match s.man.due with
  | [] => none
  | x :: rest => if x == e && s.eventsRun then some { s with man := { s.man with due := rest } } else none

/-! ## The cold-flush window -/

/-- The scheduled tide of the cold-flush window last reached (R41, R42, R177). -/
def State.windowTide (s : State) : Nat :=
  let n := 2 ^ shortened (s.hpar .flushP) (gradeFlush s.grade.eff)
  s.tide.now - (s.tide.now + n - s.hpar .flushPhase % n) % n

/-- COLD_FLUSH_WINDOW (R404, R408): skipped with no locker, no moored step or a flush running. W is the tide the window was scheduled for. -/
def State.flushWindow (s : State) : State :=
  if s.hpar .lockerDev == 0xFFFFF || s.locker.flush.isSome || !s.jobOn || s.ident.gen || (!s.steps.anyMoored && (s.talliesBefore s.windowTide).isEmpty) || s.quiet then s
  else s.flushStart s.windowTide (s.hpar .flushCplBase) false

end Sys2Proof.Machine
end

