-- ==== Sys2Proof/Machine/Secure.lean ====
section
/-! DEFINITION. Security states (R414 to R419), the sideband inputs (R462 to R466), power states (R421 to R426), reset (R437)
and the charter rewrite (R430 to R432). -/

namespace Sys2Proof.Machine

/-! ## Security states -/

/-- The STATE code of a security state (R418), and of a power state (R422). -/
def SecState.code : SecState → Nat
  | .sealed => 0
  | .maintenance => 1
  | .opened => 2

def PwrSt.code : PwrSt → Nat
  | .run => 0
  | .idle => 1
  | .hold => 2

/-- Maintenance or Open. -/
def State.maint (s : State) : Bool := s.sec.state != .sealed

/-- Maintenance operations end (R419); SCOPE 1 windows close with the state. -/
def State.endMaintenance (s : State) : State :=
  let s1 := { s with boot := { s.boot with warmReq := false },
                     crw := if 1 ≤ s.crw.state && s.crw.state ≤ 5 then { s.crw with stop := 7 } else s.crw }
  foldS s1.physAll (fun p s => s.modQuay p (fun q => { q with flip2 := q.flip2 &&& 0x7FFFFFFF })) s1

/-- Change between Sealed and Maintenance: logical quay 0 tells every quay on the control class (R414), and logs SEC_STATE with old state,
new state and cause (R416, R420). -/
def State.setSec (s : State) (new : SecState) (cause : Nat) : State :=
  let old := s.sec.state
  let s1 := { s with sec := { s.sec with state := new, changes := min (s.sec.changes + 1) 0xFFFF } }
  let s2 := if old == .maintenance then s1.endMaintenance else s1
  (s2.ringCast 0 4 (.security new.code)).evH .secState [(2, old.code), (2, new.code), (8, cause)]

/-- What a manifest scan tide makes of PRESENCE (R416), a change in Hold included (R425). -/
def State.secScan (s0 : State) : State :=
  let s1 := { s0 with sec := { s0.sec with presLate := false } }
  let s := if s0.sec.presLate && s0.sec.presence && !s0.sec.loop && s0.sec.state == .sealed then s1.evH .secPresenceFault else s1
  match s.sec.state with
  | .sealed => if s.sec.presence && s.sec.loop && !s.sec.tamper then s.setSec .maintenance 0 else s
  | .maintenance => if s.sec.presence then s else s.setSec .sealed 0
  | .opened => s

/-- PRESENCE_CHANGE: the filtered value changes (R416, R464). After it was forced low, PRESENCE is honoured again only once the
pin has been low for a filter period. A change in Hold is seen at the first scan after it (R425). -/
def State.presenceChange (s : State) (level : Bool) : State :=
  if !level then
    { s with sec := { s.sec with presence := false }, sb := { s.sb with presSince := none, presForced := false } }
  else if s.sb.presForced || s.sec.presence then s
  else
    let s1 := { s with sec := { s.sec with presence := true }, sb := { s.sb with presSince := some s.clock } }
    if s1.pwr.state == .hold then { s1 with sec := { s1.sec with presLate := true } }
    else if s1.sec.state == .sealed && !s1.sec.loop then s1.evH .secPresenceFault else s1

/-- Whether the charter has been read, so that the limits of R464 hold. -/
def State.charterRead (s : State) : Bool := s.ident.device != 0xFFFFF

/-- PRESENCE_MAX_EXPIRY: PRESENCE is forced low, Maintenance ends, STUCK is set (R464). -/
def State.presenceMax (s : State) : State :=
  match s.sb.presSince with
  | none => s
  | some t =>
    if !s.charterRead || !s.passed t (s.hpar .presenceMax) then s else
    let s1 := { s with sec := { s.sec with presence := false }, sb := { s.sb with presSince := none, presForced := true, stuck := true } }
    if s1.sec.state == .maintenance then s1.setSec .sealed 0 else s1

/-- SEAL_LOOP_BREAK: a filtered break seen by a quay in service sets the tamper latch at once; Maintenance falls back to Sealed
(R416). Other quays that see the same break add nothing. -/
def State.loopBreak (s : State) (p : Nat) : State :=
  if !(s.quay p).inService && p != s.q0 then s else
  let s1 := if p == s.q0 then { s with sec := { s.sec with loop := false } } else s
  if s1.sec.broken then s1 else
  let old := s1.sec.state
  let s2 := { s1 with sec := { s1.sec with broken := true, tamper := true } }
  let s3 := if old == .maintenance then s2.setSec .sealed 1 else s2
  s3.evH .secTamper [(2, old.code)]

/-- SEAL_LOOP_RESTORE: the filtered value reads intact again; the latch stays (R417, R464). -/
def State.loopRestore (s : State) : State := { s with sec := { s.sec with loop := true, broken := false } }

/-! ## The other sideband inputs -/

/-- A stop takes effect (R465): quiescence with a job active, else STOPPED, a job start in progress ending as by teardown. -/
def State.stopNow (s : State) : State :=
  match s.job.phase with
  | .ready => if s.quiet then s else s.goQuiet 2
  | .starting => State.endJob { s with sb := { s.sb with stopped := true } }
  | _ => { s with sb := { s.sb with stopped := true } }

/-- FAIL_STOP_IN_ASSERT: a filtered assertion seen by a quay in service stops the harbour once; in Idle and Hold the stop
waits for the return to Run (R463, R465). -/
def State.failStop (s : State) (p : Nat) : State :=
  if !(s.quay p).inService && p != s.q0 then s else
  let s1 := if p == s.q0 then { s with sb := { s.sb with fsIn := true } } else s
  if !s1.sb.fsArmed then s1 else
  let s2 := { s1 with sb := { s1.sb with fsArmed := false } }
  if s2.pwr.state == .run then s2.stopNow else { s2 with sb := { s2.sb with stopLater := true } }

/-- FAIL_STOP_IN_REARM (R465). -/
def State.failStopRearm (s : State) : State :=
  { s with sb := { s.sb with fsIn := false, fsArmed := true, stopped := false } }

/-- PILOT_GRADE_CHANGE: a value has stayed stable for the filter period; it is taken under R178 at the next scan (R464). -/
def State.pilotGrade (s : State) (g : Nat) : State := { s with sb := { s.sb with gradeIn := g % 8, unsettled := false } }

/-- GRADE_SETTLE_EXPIRY: grade 7 is taken and UNSETTLED is set (R464). -/
def State.gradeSettle (s : State) : State :=
  if !s.charterRead then s else State.setGrade { s with sb := { s.sb with unsettled := true } } 7

/-- SIDEBAND_GLITCH: counted, with no other effect (R463, R466). -/
def State.glitch (s : State) (pin : SbPin) : State :=
  let up := fun n => min (n + 1) 0xFF
  match pin with
  | .presence => { s with sb := { s.sb with glPresence := up s.sb.glPresence } }
  | .sealLoop => { s with sb := { s.sb with glLoop := up s.sb.glLoop } }
  | .pilotGrade => { s with sb := { s.sb with glGrade := up s.sb.glGrade } }
  | .failStop => { s with sb := { s.sb with glStop := up s.sb.glStop } }

/-! ## Power states -/

/-- Whether a rewrite is in progress. -/
def State.crwBusy (s : State) : Bool := decide (1 ≤ s.crw.state) && decide (s.crw.state ≤ 5)

/-- The outputs ALARM, IRQ and MARGIN_REQ of the harbour; in Hold they keep the values they had at entry (R372, R373, R347, R462). -/
def State.outPins (s : State) : Nat :=
  if s.pwr.state == .hold then s.pwr.pins else pack [(1, b2n s.alarmPin), (4, s.irqPins.toNat), (1, b2n s.marginReq)]

/-- A power state is entered: PWR_STATE with old state, new state and a cause whose code the manual does not give. What waited
for Run follows: records kept in Hold (log 38), a stop. -/
def State.setPwr (s : State) (new : PwrSt) : State :=
  let r := s.takeFree
  let s1 := r.2.evH .pwrState [(2, s.pwr.state.code), (2, new.code), (8, r.1 % 256)]
  let s2 := State.ringCast { s1 with pwr := { s1.pwr with state := new, going := false, pins := s1.outPins } } 0 4 (.power new.code)
  let s3 := if new == .hold then { s2 with tide := { s2.tide with holdEntry := some s2.tide.now, stalled := false, backEp := false, lost := false } } else s2
  let s4 := if s.pwr.state == .hold then s3.evFlush else s3
  if new == .run && s4.sb.stopLater then State.stopNow { s4 with sb := { s4.sb with stopLater := false } } else s4

/-- Salvage and audits that entry to Idle or Hold has parked go on in Run, but for those a park manifest marks (R57, R423). -/
def State.pwrUnpark (s : State) : State :=
  foldS s.physIn (fun p s => s.modQuay p (fun q => { q with salv := { q.salv with parked := q.salv.mark }, dredge := { q.dredge with parked := q.dredge.mark } })) s

/-- What returns an Idle harbour to Run (R423). -/
def State.wake (s : State) : State := if s.pwr.state == .idle then s.pwrUnpark.setPwr .run else s

/-- The first REASON that refuses a request for Idle or Hold (R422); of several the lowest: DESIGN CHOICE (log 135). -/
def State.pwrRefusal (s : State) (req : PwrSt) : Option Nat :=
  if s.job.phase != .none then some 1
  else if !s.man.held.isEmpty then some 2
  else if s.crwBusy || s.boot.warmReq then some 3
  else if s.boot.phase != 5 then some 4
  else if s.reliefs.any (fun r => r.st != .inService) then some 6
  else if req == .idle && s.pwr.state == .hold then some 7
  else none

/-- A refused request: the state does not change, nor does a request made before (R422). -/
def State.pwrRefuse (s : State) (req : PwrSt) (reason : Nat) : State :=
  State.evH { s with pwr := { s.pwr with reason := reason } } .pwrRefused [(2, req.code), (4, reason)]

/-- The pending request is done or refused. -/
def State.pwrClear (s : State) : State := { s with pwr := { s.pwr with pending := none, going := false } }

/-- Whether no request is in flight on a quay: of its ports, of remote memory, or on its channel port (R423). -/
def Quay.quietPorts (q : Quay) : Bool :=
  q.ops.isEmpty && q.fin.isEmpty && q.mc.isEmpty && q.rmt.oot.isEmpty && q.rmt.held.isEmpty && q.rmt.comb.isEmpty

/-- The state whose request has been taken is entered once the requests in flight are complete (R423), where no REASON has come up since. -/
def State.pwrGo (s : State) : State :=
  match s.pwr.pending with
  | some r =>
    if !s.pwr.going then s else
    match s.pwrRefusal r with
    | some n => s.pwrClear.pwrRefuse r n
    | none => if s.physIn.all (fun p => (s.quay p).quietPorts) then s.pwrClear.setPwr r else s
  | none => s

/-- Salvage and audits of every quay park before Idle or Hold; without a job there is no other work of R55 (R56, R423). -/
def State.pwrPark (s : State) : State :=
  foldS s.physIn (fun p s => s.modQuay p (fun q => { q with salv := { q.salv with parked := true }, dredge := { q.dredge with parked := true } })) s

/-- Take the pending request (R422, R423): work parks, and Idle or Hold is entered once what is in flight is complete. -/
def State.pwrTake (s : State) : State :=
  match s.pwr.pending with
  | none => s
  | some r =>
    if r == s.pwr.state then s.pwrClear
    else if r == .run then s.pwrClear.pwrUnpark.setPwr .run
    else match s.pwrRefusal r with
      | some n => s.pwrClear.pwrRefuse r n
      | none => State.pwrGo { s.pwrPark with pwr := { s.pwr with going := true } }

/-- PWR_STATE: a request is taken at the next manifest scan tide, in Hold at once (R422); one taken already takes effect once nothing is in
flight. -/
def State.pwrStep (s : State) : State :=
  if s.pwr.going then s.pwrGo else if s.pwr.state == .hold || s.man.due.contains .scan then s.pwrTake else s

/-- A write of H_PWR_CTL with a request: a wrong KEY refuses Idle and Hold (R422). -/
def State.pwrReq (s : State) (key : Nat) (r : PwrSt) : State :=
  if key != 0x5057 then (if r == .run then s else s.pwrRefuse r 5)
  else
    let s1 := { s with pwr := { s.pwr with pending := some r, going := false } }
    if s1.pwr.state == .hold then s1.pwrTake else s1

/-- SUPPLY_REMOVED: Off loses all block state; memory is as the memory controller keeps it (R426). -/
def State.supplyRemoved (s : State) : State :=
  { State.reset with fit := s.fit, mem := s.mem, poisoned := s.poisoned, badLines := s.badLines, free := s.free,
                     pending := s.pending, pwr := { off := true } }

/-- QRESET: every register takes its reset value, on every quay of the harbour; the strap is sampled, and a reset released with
the loop broken sets the tamper latch (R415, R417, R437). A supply restored is logged when start-up begins (R423). -/
def State.qreset (s : State) (strap loop : Bool) : State :=
  let lab := s.fit.labParts && strap
  let sec : Sec := { state := if lab then .opened else .sealed, strap := lab, tamper := !loop }
  let s1 := { State.reset with fit := s.fit, mem := s.mem, poisoned := s.poisoned, badLines := s.badLines, free := s.free,
                               pending := s.pending, taps := s.taps, sec := sec, pwr := { restored := s.pwr.off || s.pwr.restored } }
  whenB lab (fun s => s.setAlarm 15) (whenB (!loop) (fun s => s.setAlarm 13) s1)

/-! ## Charter rewrite -/

/-- A rewrite ends as failed: CRW_FAILED with ERROR and PROGRESS (R420, R430). -/
def State.crwFail (s : State) (err : Nat) : State :=
  State.evH { s with crw := { s.crw with state := 7, error := err, todo := [], stop := 0 } } .crwFailed [(4, err), (23, s.crw.progress)]

/-- The image at H_CRW_SRC: LEN bytes of a plain region, none when a line of it does not read. -/
def State.crwImage (s : State) : Option Nat :=
  let a := s.crw.src
  let ok := fun (n : Nat) => (linesOf a n).all (fun x => s.kindOf 0 x == 0 && s.lineOk 0 x)
  if !ok 128 then none else
  let len := s.readB 0 (a + 8) 4
  if 2 ^ 23 < len || !ok len then none else some (s.readB 0 a len)

/-- The address of the copy to write (R384, R385): the one not in use. -/
def State.crwBase (s : State) : Nat :=
  if s.crw.copy == 0 then 0 else if s.crw.kind == .spi then 0x800000 else 0x8000

/-- Commands of the erase stage: the header sector first, or zeros over the header (R431). -/
def State.crwErase (s : State) : List FlashCmd :=
  if s.crw.kind == .spi then (List.range (cdiv s.crw.len 4096)).map (fun i => .erase (s.crwBase + 4096 * i))
  else [.zeroPage s.crwBase 64, .zeroPage (s.crwBase + 64) 64]

/-- Commands of the program stage, bytes 128 to LEN - 1 in pages (R431). -/
def State.crwProgram (s : State) : List FlashCmd :=
  let n := if s.crw.kind == .spi then 256 else 64
  ((List.range (cdiv s.crw.len n)).filter (fun i => decide (128 < n * (i + 1)))).map (fun i =>
    let a := max (n * i) 128
    .program (s.crwBase + a) (min (n * (i + 1)) s.crw.len - a))

/-- Commands of the header stage: the header, then its read-back. -/
def State.crwHeader (s : State) : List FlashCmd :=
  (if s.crw.kind == .spi then [.header s.crwBase] else [.header s.crwBase, .header (s.crwBase + 64)]) ++ [.readHeader s.crwBase]

/-- The header written: GEN one later than the copy in use, HCRC computed anew (R431). -/
def State.crwHead (s : State) : Nat :=
  let h := s.crw.image % 2 ^ 1024
  withCrc 128 (setFld h 127 96 s.crw.gen)

/-- The next stage, once a stage's commands are done. -/
def State.crwNext (s : State) : State :=
  let stage := fun (n : Nat) (todo : List FlashCmd) => { s with crw := { s.crw with state := n, todo := todo } }
  match s.crw.state with
  | 2 => stage 3 s.crwProgram
  | 3 => stage 4 [.readBack (s.crwBase + 128) (s.crw.len - 128)]
  | 4 => stage 5 s.crwHeader
  | _ => State.evH { s with crw := { s.crw with state := 6 } } .crwDone [(1, s.crw.copy), (32, s.crw.gen)]

/-- Go on to the next stage where no command is left; empty stages are passed over. -/
def State.crwStage (s : State) : Nat → State
  | 0 => s
  | n + 1 => if s.crwBusy && s.crw.todo.isEmpty then s.crwNext.crwStage n else s

/-- The limit a staged image is checked against, and whether it is too long. -/
def State.crwTooLong (s : State) : Bool := decide (copyLimit s.crw.kind < s.readB 0 (s.crw.src + 8) 4)

/-- A GO that reaches its check (R431 stage 1; of several ERRORs see log 135): the errors of R430, then the erase stage. -/
def State.crwStart (s : State) : State :=
  let s0 := { s with crw := { s.crw with state := 1, error := 0, progress := 0, stop := 0, todo := [], copy := 1 - s.boot.copy } }
  if !s0.maint then s0.crwFail 1
  else if s0.job.phase != .none || s0.boot.phase != 5 then s0.crwFail 2
  else if !(s0.quay 0).inService then (s0.evH .charterPortUnavailable).crwFail 9
  else if s0.crwTooLong then s0.crwFail 4
  else match s0.crwImage with
    | none => s0.crwFail 3
    | some v =>
      if !copyValid (copyLimit s0.crw.kind) v then s0.crwFail 3
      else if s0.crw.kind == .spi && s0.crw.erase.isNone then s0.crwFail 10
      else
        let gen := ((s0.boot.genFull + 1) % 2 ^ 32)
        let s1 := { s0 with crw := { s0.crw with state := 2, len := byt v 11 8, image := v, gen := gen } }
        State.crwStage { s1 with crw := { s1.crw with todo := s1.crwErase } } 4

/-- FLASH_COMMAND_DONE: the command in flight has ended, and a command boundary is reached, at which a rewrite that is to stop does
(R419, R430 to R432). -/
def State.flashDone (s : State) (r : FlashEnd) : State :=
  match s.crw.todo with
  | [] => s
  | c :: rest =>
    let mark := fun (n : Nat) => { s with crw := { s.crw with todo := rest, progress := s.crw.progress + n } }
    let s1 := match c with
      | .program a n => mark ((a + n) / 128 - a / 128)
      | .header a => mark (if s.crw.kind == ChKind.spi || a != s.crwBase then 1 else 0)
      | _ => mark 0
    let wrong := match c with
      | .readBack a n => if r.data != copyBytes s.crw.image (a - s.crwBase) n then some 6 else none
      | .readHeader _ => if r.data != s.crwHead then some 5 else none
      | _ => none
    if !r.ok then s1.crwFail 5
    else match wrong with
      | some e => s1.crwFail e
      | none => if s1.crw.stop != 0 then s1.crwFail s1.crw.stop else s1.crwStage 5

/-- ABORT stops a rewrite at its next command boundary (R430). -/
def State.crwAbort (s : State) : State := if s.crwBusy then { s with crw := { s.crw with stop := 8 } } else s

/-- A rewrite whose harbour master has failed (R432). -/
def State.crwLost (s : State) : State := if s.crwBusy && !(s.quay 0).inService then s.crwFail 9 else s

end Sys2Proof.Machine
end

