-- ==== Sys2Proof/Machine/Integrity.lean ====
section
/-! DEFINITION. Integrity work at scheduled events: armed flips of the staging SRAM (R338), known-answer runs and settling
units (R343 to R346), the dredge (R348 to R351), and lock-step comparison (R357 to R359). -/

namespace Sys2Proof.Machine

/-! ## The flip masks (R335 to R338) -/

/-- The items of a target of R338 with a number that names each, and whether an item also stood in another quay state as it is
now. -/
def Quay.sramItems (q old : Quay) (target : Nat) : List (Nat × Bool) :=
  match target with
  | 0 => q.pools.live.map (fun b => (b.handle, old.pools.live.any (fun x => x.handle == b.handle && x.wr == b.wr)))
  | 1 => q.rmt.rrc.map (fun x => (x.key, old.rmt.rrc.contains x))
  | 2 => q.rmt.reply.map (fun x => (x.recI * 2 ^ 32 + x.rseq.toNat, old.rmt.reply.contains x))
  | 3 => q.rmt.oot.map (fun x => (x.tag, old.rmt.oot.contains x))
  | 4 => q.rmt.comb.map (fun x => (x.addr, old.rmt.comb.contains x))
  | _ => []

/-- After a command: flips whose item has gone or has been written again are over, and an armed mask is put on the first item
of its target written since, which clears ARM (R338). -/
def Quay.flipWrites (q old : Quay) : Quay :=
  let armed := q.flip2.getLsbD 31
  if q.flips.isEmpty && !armed then q else
  let keep := q.flips.filter (fun f => (q.sramItems old f.1).any (fun x => x.1 == f.2.1 && x.2))
  let t := fld q.flip2.toNat 19 16
  let bits := popCount 32 q.flip0.toNat + popCount 32 q.flip1.toNat + popCount 15 (fld q.flip2.toNat 14 0)
  match (if armed then (q.sramItems old t).find? (fun x => !x.2) else none) with
  | none => { q with flips := keep }
  | some x => { q with flips := if bits == 0 then keep else keep ++ [(t, x.1, bits)], flip2 := q.flip2 &&& 0x7FFFFFFF#32 }

/-! ## Known answers (R343 to R346) -/

/-- The steps moored since a unit's last passed run: first and last, 0 and 0 when none (R344, R354). -/
def State.katRange (s : State) (p unit : Nat) : Nat × Nat :=
  let lo := max ((s.quay p).susp.get {} unit).lastKat s.job.startStep + 1
  if s.steps.anyMoored && decide (lo ≤ s.steps.moored) then (lo, s.steps.moored) else (0, 0)

/-- The signature of a failed kernel. The ROM value of a kernel and what a failed one shows are free values (log 128). -/
def State.katSig (s : State) (p unit : Nat) : SigArg :=
  { cls := 0x0A, unit := unit, step := some (s.katRange p unit).1, detail := (s.katRange p unit).2,
    expected := Config.katRom unit % 2 ^ 32, observed := Config.katSeen unit s.ev.fsSeq % 2 ^ 32 }

/-- A kernel failed at its slot: KAT_FAIL, the unit is suspect, and every step not yet contributed for carries an abort request
(R344). -/
def State.katFail (s : State) (p unit : Nat) : State := (s.suspect p unit (s.katSig p unit)).requestAbortOpen

/-- Change the suspect state of a unit. -/
def State.modSusp (s : State) (p unit : Nat) (f : Susp → Susp) : State :=
  s.modQuay p (fun q => { q with susp := q.susp.set unit (f (q.susp.get {} unit)) })

/-- A kernel passed. -/
def State.katPass (s : State) (p unit : Nat) : State := s.modSusp p unit (fun u => { u with lastKat := s.steps.moored })

/-- The order in which a quay exercises its units: the salvage solver (3) is the last (R343). -/
def katOrder : List Nat := [2, 4, 5, 6, 7, 1, 3]

/-- A known-answer run: every quay in service runs the kernel of each unit in turn, the salvage solver
last (R343); `fails` are those whose kernel fails, `errs` those that meet an error in their next operation, of a residue check, of the identities of
the write path (unit 1), or of the valid array of the staging SRAM (unit 8) (R329, R337, R345; log 129). -/
def State.katRun (s : State) (fails errs : List (Nat × Nat)) : State :=
  let s1 := foldS s.physIn (fun p s => foldS katOrder (fun u s =>
    if fails.contains (p, u) then s.katFail p u else s.katPass p u) s) s
  foldS (errs.filter (fun e => s1.physIn.contains e.1)) (fun e s => s.modQuay e.1 (fun q => { q with glitch := q.glitch ++ [e.2] })) s1

/-- The kernel scheduled at MARGIN_SETTLE (R346). -/
def State.marginSettle (s : State) (p unit : Nat) (pass : Bool) : State :=
  let u := (s.quay p).susp.get {} unit
  if !(s.quay p).inService || u.st != 1 || !(u.settle.any (fun t => decide (t ≤ s.clock))) then s
  else if pass then
    s.modSusp p unit (fun u => { u with st := 2, settle := none, hold := some s.clock, lastKat := s.steps.moored })
  else
    let a := s.katSig p unit
    let s1 := ((s.modSusp p unit (fun u => { u with st := 3, settle := none })).sig p a).requestAbortOpen
    (s1.sig p { cls := 0x13, unit := unit, named := some (s1.failedArg p) }).fatal p true

/-- MARGIN_HOLD tides without a suspect event (R346). -/
def State.marginHold (s : State) (p unit : Nat) : State :=
  let u := (s.quay p).susp.get {} unit
  if !(s.quay p).inService || u.st != 2 || !(u.hold.any (fun t => s.passed t ((s.param? p .marginHold).getD 0))) then s
  else s.modSusp p unit (fun u => { u with st := 0, count := 0, hold := none })

/-! ## The dredge (R348 to R351) -/

/-- Words of the staging SRAM: 8 MiB of 64 bits (R348). -/
def sramWords : Nat := 2 ^ 20

/-- The patrol reads SRAM_PATROL words in ascending address; words written under a flip mask are met when it comes round. The
spec does not say at which word an item of the staging SRAM lies, so a flip is met when the patrol passes the last word (DESIGN
CHOICE, log 114). -/
def State.patrol (s : State) (l : Nat) : State :=
  let c := (s.lquay l).dredge.patrol + s.lpar l .sramPatrol
  let s1 := s.modLquay l (fun q => { q with dredge := { q.dredge with patrol := c % sramWords } })
  if c < sramWords then s1 else foldS (s1.lquay l).flips (fun f s => (s.sramRead l f.1 f.2.1).1) s1

/-- The parity units of a position, convoys in index order: convoy and unit. -/
def State.parList (s : State) (l : Nat) : List (Nat × Nat) :=
  s.convoys.flatMap (fun c => (List.range (c.parUnits l)).map (fun e => (c.idx, e)))

/-- Compare line `i` of a position with its shadow entry: data units first, then parity units (R348). A failed line is rebuilt
by a demand pass (R332); one not yet salvaged, or open in the write path, is passed over. The rebuild gives the signature of R332. -/
def State.scrubLine (s : State) (l i : Nat) : State :=
  let q := s.lquay l
  let u := q.protUnits
  if i < u * 32 then
    match q.addrOfUnit (i / 32) with
    | none => s
    | some b =>
      let a := b + 128 * (i % 32)
      let s1 := match s.dataShadow l a with
        | some sh => s.shadowTouch l sh
        | none => s
      if s.unsalvaged l a || q.lostLines.contains a || q.ops.any (fun o => lineOf o.addr == a) || s.oldSound l a then s1
      else s1.demandSalvage l a
  else
    let k := i - u * 32
    match (s.parList l)[k / 32]? with
    | none => s
    | some (ci, e) =>
      let c := s.convoy ci
      let st := (c.parStripe c.pos e).1
      if !s.isMember c || s.underRebuild l c st || s.anchoring l ci st ||
        s.lineSound l (c.parLine l e (k % 32)) (c.parShadow l e) (k % 32) then s.shadowTouch l (c.parShadow l e)
      else s.startPass l ci st [c.role st] [k % 32] false [] 0

/-- Scrub SCRUB_LINES lines from the cursor on. -/
def State.scrub (s : State) (l : Nat) : State :=
  let n := (s.lquay l).protUnits * 32 + (s.parList l).length * 32
  if n == 0 then s else
  let c := (s.lquay l).dredge.scrub
  let k := min (s.lpar l .scrubLines) n
  let s1 := foldS (List.range k) (fun i s => s.scrubLine l ((c + i) % n)) s
  s1.modLquay l (fun q => { q with dredge := { q.dredge with scrub := (c + k) % n } })

/-- The stripes for which this device holds parity 0 on a quay: convoys in index order, parity units ascending (R348). -/
def State.auditList (s : State) (l : Nat) : List (Nat × Nat) :=
  s.convoys.flatMap (fun c => if !s.isMember c then [] else
    ((List.range (c.parUnits l)).filter (fun e => (c.parStripe c.pos e).2 == 0)).map (fun e => (c.idx, (c.parStripe c.pos e).1)))

/-- Whether the audit skips a stripe (R349). -/
def State.auditSkip (s : State) (l ci st : Nat) : Bool :=
  let c := s.convoy ci
  s.anchoring l ci st || s.salvaging ci || (List.range c.n).any (fun x => s.isVacant c x) ||
    s.steps.recs.any (fun r => r.state == .aborting)

/-- Start the audits whose berth has been given (R308). -/
def State.auditGo (s : State) (l : Nat) : State :=
  foldS ((s.lquay l).dredge.wait.filter (fun x => s.hasBerth l .dredge (x.1 * 2 ^ 32 + x.2))) (fun x s =>
    let s1 := s.modLquay l (fun q => { q with dredge := { q.dredge with wait := q.dredge.wait.filter (· ≠ x) } })
    if s1.auditSkip l x.1 x.2 then (s1.countL l 0x27 1).berthSync l else s1.startPass l x.1 x.2 [] [] true [] 0) s

/-- Audit a stripe once its berth is given, or skip it and count DREDGE_SKIP (R349). -/
def State.auditOne (s : State) (l ci st : Nat) : State :=
  if s.auditSkip l ci st then s.countL l 0x27 1 else
  let s1 := (s.berthAlloc l 5 .dredge (ci * 2 ^ 32 + st) .wait).1
  (s1.modLquay l (fun q => { q with dredge := { q.dredge with wait := q.dredge.wait ++ [(ci, st)] } })).auditGo l

/-- Audit DREDGE_STRIPES stripes: those to be retried, then the next in order (R348, R351). -/
def State.audit (s : State) (l : Nat) : State :=
  let d := (s.lquay l).dredge
  let n := s.lpar l .dredgeStripes
  let re := d.retry.take n
  let all := s.auditList l
  let k := min (n - re.length) all.length
  let next := (List.range k).filterMap (fun i => all[(d.audit + i) % max all.length 1]?)
  let s1 := s.modLquay l (fun q => { q with dredge := { q.dredge with retry := d.retry.drop n, audit := (d.audit + k) % max all.length 1 } })
  foldS (re ++ next) (fun x s => s.auditOne l x.1 x.2) s1

/-- DREDGE_SLOT of a position: patrol, scrub, audit, the audit once background salvage leaves the coder (R56). Parked work resumes at its next slot unless it carries a park mark; scrub and
audit need the protected state of a learner's running job. -/
def State.dredge (s : State) (l : Nat) : State :=
  if !s.serving l || (s.lquay l).dredge.mark then s else
  let s1 := (s.modLquay l (fun q => { q with dredge := { q.dredge with parked := false } })).patrol l
  if s1.ident.gen || s1.job.phase != .ready || s1.quiet then s1 else
  let s2 := s1.scrub l
  if s2.coderBusy l then s2 else s2.audit l

/-- What the syndromes of a line show (R350). -/
inductive AuditFind where
  | sound | parity (j : Nat) | data (i : Nat) | unlocal
  deriving DecidableEq, Repr

/-- Judge the syndromes S_0 to S_{M-1} of one line over the present data indices (R350): every byte of S_j equals g(j, i) times
that of S_0 exactly when the lines do, and g(0, i) is 1. -/
def auditFind (idx : List Nat) (syn : List Line) : AuditFind :=
  let bad := (List.range syn.length).filter (fun j => syn.getD j 0 != 0)
  match bad with
  | [] => .sound
  | [j] => if syn.length == 1 then .unlocal else .parity j
  | _ =>
    match (if bad.length == syn.length then
        idx.find? (fun i => (List.range syn.length).all (fun j => syn.getD j 0 == gfScale (gen j i) (syn.getD 0 0)))
      else none) with
    | some i => .data i
    | none => .unlocal

/-- The syndromes of line `ln` from the pieces of an audit and the holder's own parity 0 (R349). -/
def State.syndromes (s : State) (l : Nat) (p : Pass) (ln : Nat) : List Line :=
  let c := s.convoy p.convoy
  let own := s.getLine l (c.parLine l (c.parUnit p.stripe 0) ln)
  (List.range c.m).map (fun j =>
    (c.presentIdx l p.stripe).foldl (fun a i => a ^^^ gfScale (gen j i) ((p.pieces.get [] i).getD ln 0))
      (if j == 0 then own else (p.pieces.get [] (c.k + j)).getD ln 0))

/-- Tell the member that holds a role of an audited stripe what was found (R350): `lines` that are corrupt, none where all of a parity is to be
anchored again and no fault is localised. DESIGN CHOICE (log 60): no message of the spec tells it; here a pass of the audit does, marked bad. -/
def State.auditTell (s : State) (l : Nat) (p : Pass) (r : Nat) (lines : List Nat) : State :=
  s.sendTx l 1 (.pass (s.helperDev (s.convoy p.convoy) l p.stripe r) { s.passMsg l p r [] with lines := lines, bad := true })

/-- Act on what the lines of a stripe show (R350): corrupt lines of this holder's parity 0 make its coder suspect, those of another parity or of a
data piece are told to its member; where a fault cannot be localised every parity is anchored again. -/
def State.auditAct (s : State) (l : Nat) (p : Pass) (fs : List (Nat × AuditFind)) : State :=
  let c := s.convoy p.convoy
  let lines := fun (f : AuditFind) => (fs.filter (fun x => x.2 == f)).map (·.1)
  let addr := fun ln => c.parLine l (c.parUnit p.stripe 0) ln
  let others := (List.range c.m).drop 1
  let s1 := foldS (lines (.parity 0)) (fun ln s => s.suspectL l 2 { cls := 0x0E, unit := 2, addr := addr ln }) s
  let s2 := foldS (others.filter (fun j => !(lines (.parity j)).isEmpty)) (fun j s => s.auditTell l p (c.k + j) (lines (.parity j))) s1
  let s3 := foldS ((c.presentIdx l p.stripe).filter (fun i => !(lines (.data i)).isEmpty)) (fun i s => s.auditTell l p i (lines (.data i))) s2
  let s4 := foldS (lines .unlocal) (fun ln s => s.sigL l { cls := 0x10, unit := 2, addr := addr ln, named := some p.stripe }) s3
  let s5 := if (lines .unlocal).isEmpty then s4 else foldS others (fun j s => s.auditTell l p (c.k + j) []) s4
  if (lines .unlocal).isEmpty && (lines (.parity 0)).isEmpty then s5 else s5.startAnchor l p.convoy p.stripe 0 .dredge

/-- Judge an audit (R350). A piece that does not read, or a berth that cannot be reached (R312), leaves the stripe unjudged, to be retried; where
the piece is that of a position under salvage the stripe is skipped (R349). A line of the holder's own parity that fails its check is rebuilt
first (R332). -/
def State.auditJudge (s : State) (l : Nat) (p : Pass) : State :=
  let u := s.berthUse l .dredge (p.convoy * 2 ^ 32 + p.stripe) (.access 0 (4096 * p.helpers.length))
  let s0 := u.1.modLquay l (fun q => { q with salv := { q.salv with passes := q.salv.passes.filter (· ≠ p) } })
  let c := s.convoy p.convoy
  let again := fun (s : State) => s.modLquay l (fun q => { q with dredge := { q.dredge with retry := q.dredge.retry ++ [(p.convoy, p.stripe)] } })
  let addr := fun ln => c.parLine l (c.parUnit p.stripe 0) ln
  let weak := (List.range 32).filter (fun ln => !s0.lineSound l (addr ln) (c.parShadow l (c.parUnit p.stripe 0)) ln)
  if p.bad.any (fun r => s.job.placed.contains (c.dev (c.rolePos p.stripe r))) then s0.countL l 0x27 1
  else if !p.bad.isEmpty || !u.2 then again s0
  else if !weak.isEmpty then (again s0).startPass l p.convoy p.stripe [c.role p.stripe] (weak.take 8) false [] 0
  else
    let s1 := foldS (List.range 32) (fun ln s => s.holdTouch l (addr ln)) (s0.shadowTouch l (c.parShadow l (c.parUnit p.stripe 0)))
    s1.auditAct l p ((List.range 32).map (fun ln => (ln, auditFind (c.presentIdx l p.stripe) (s1.syndromes l p ln))))

/-- What an audit has found of a piece of this device (R350): corrupt lines of a data piece make its write path suspect and are rebuilt by demand
salvage, the piece itself counted unavailable; corrupt lines of a parity make its coder suspect, and the parity is anchored again. -/
def State.auditFound (s : State) (l : Nat) (m : SalvMsg) : State :=
  let c := s.convoy m.hd.convoy
  let r := c.role m.stripe
  if !s.isMember c || c.passPos m.stripe r != m.pos then s.countL l 0x0D 1
  else if r < c.k then
    foldS m.lines (fun ln s => match s.pieceAddr c l m.stripe ln with
      | some a => (s.suspectL l 1 { cls := 0x0F, unit := 1, addr := a, expected := s.shadowCrc l (c.pieceShadow l m.stripe) ln, observed := lineCrc (s.getLine l a) }).demandSalvage l a
      | none => s) s
  else
    (foldS m.lines (fun ln s => s.suspectL l 2 { cls := 0x0E, unit := 2, addr := c.parLine l (c.parUnit m.stripe (r - c.k)) ln }) s).startAnchor l
      c.idx m.stripe (r - c.k) .dredge

/-! ## Lock-step comparison (R357 to R359) -/

/-- The sum of a window over the quays, and the writes counted (R358). -/
def State.lockSum (s : State) (w : Nat) : Nat × Nat :=
  s.ports.foldl (fun a e => ((a.1 + e.2.lockD.get 0 w) % 2 ^ 64, a.2 + e.2.lockW.get 0 w)) (0, 0)

/-- CUM of a window: the sum of every window up to it since the job start, whatever became of its record, entries made void left out (R358). -/
def State.lockCum (s : State) (w : Nat) : Nat :=
  s.ports.foldl (fun a e => (a + (e.2.lockD.filter (fun x => decide (x.1 ≤ w))).foldl (fun b x => b + x.2) 0) % 2 ^ 64) 0

/-- FLAGS of a window: PARTIAL, TIDE. -/
def State.lockFlags (s : State) (w : Nat) : Nat := b2n (s.lock.partialW.contains w) + 2 * b2n (s.tide.faultWins.contains w)

/-- The record of a window (R359). -/
def State.lockRecord (s : State) (w cum : Nat) : Line :=
  BitVec.ofNat 1024 (withCrc 128 (pack [(64, w), (64, (s.lockSum w).1), (64, cum), (64, (s.lockSum w).2), (20, s.ident.device), (4, 0),
    (8, s.lockFlags w)]))

/-- Write the record to its slot of the peer's area, from logical quay 0. Lane 4 is none of the compute port's four, so nothing is
answered there. -/
def State.lockRecSend (s : State) (w : Nat) (x : Line) : State :=
  s.rmtIssue 0 { pos := 0, lane := 4, tag := w, addr := s.hpar .lockOff + 128 * (w % 64), dev := s.hpar .lockPeer, win := s.hpar .lockWin,
                 mask := fullMask, data := x, crcv := true, crc := lineCrc x, poison := false, fmt := 0, attr := 0, flag := false,
                 aop := 0, atype := 0, noret := false, priv := true, master := 0 } 2

/-- The peer's record of a window in this device's own area: CUM and FLAGS, where it is there and RCRC agrees. -/
def State.lockPeerRec (s : State) (w : Nat) : Option (Nat × Nat) :=
  let a := (s.window (s.hpar .lockWin)).base * 4096 + s.hpar .lockOff + 128 * (w % 64)
  let v := s.readB 0 a 128
  if crcOk 128 v && byt v 7 0 == w && s.lineOk 0 a then some (byt v 23 16, byt v 35 35) else none

/-- Comparison stops until the next job start. -/
def State.lockStop (s : State) : State := { s with lock := { s.lock with stopped := true } }

/-- Judge the windows up to `w - 2`, oldest first, each from the records of it and of the next; `n` bounds them (R359). A window this
harbour closed no record for saw a tide fault. -/
def State.lockJudge (s : State) (w : Nat) : Nat → State
  | 0 => s
  | n + 1 =>
    let v := s.lock.judged
    if s.lock.stopped || w < v + 2 then s else
    match s.lockPeerRec v, s.lockPeerRec (v + 1) with
    | some (c0, f0), some (c1, _) =>
      let s1 := { s with lock := { s.lock with judged := v + 1, lateSince := none } }
      if (s.lockFlags v ||| f0) % 4 != 0 || (s.lock.cums.find v).isNone then (s1.evH .lockSuspended [(64, v)]).lockStop
      else if s.lock.cums.get 0 v == c0 then s1.lockJudge w n
      else if s.lock.cums.get 0 (v + 1) == c1 then (s1.countH 0x28).lockJudge w n
      else ((s1.sig s1.q0 { cls := 0x12, unit := 0, named := some v }).setIrq 2).lockStop
    | _, _ =>
      let since := s.lock.lateSince.getD w
      let s1 := { s with lock := { s.lock with lateSince := some since } }
      let s2 := if w == since + 3 then s1.evH .lockPeerLate [(64, v)] else s1
      if since + 64 ≤ w then s2.lockStop else s2

/-- LOCK_STEP_WINDOW_CLOSE: the record of the window that ends goes to the peer, and windows are judged. -/
def State.lockClose (s : State) : State :=
  if s.hpar .lockPeer == 0xFFFFF || !s.jobOn || s.lock.stopped || !s.serving 0 then s else
  let w := s.tide.now / 2 ^ s.hpar .lockP - 1
  let cum := s.lockCum w
  let first := s.lock.cums.isEmpty
  let s1 := s.lockRecSend w (s.lockRecord w cum)
  let s2 := { s1 with lock := { s1.lock with cum := cum, cums := Tbl.set (s1.lock.cums.filter (fun (e : Nat × Nat) => decide (w < e.1 + 70))) w cum,
                                             judged := if first then w else s1.lock.judged } }
  s2.lockJudge w 70

end Sys2Proof.Machine
end

