-- ==== Sys2Proof/Machine/Registers.lean ====
section
/-! DEFINITION. The register port (16): address decoding, reads and writes under R469 to R476, and the counter snapshot (R381,
R382). -/

namespace Sys2Proof.Machine

/-! ## Decoding (R467, R468) -/

/-- What a register address names: a word of the harbour common block, a word of a quay block, or no block. -/
inductive RegBlk where
  | harbour (off : Nat) | quay (p off : Nat) | none
  deriving DecidableEq, Repr

/-- The block and word offset of a byte address. -/
def regBlk (addr : Nat) : RegBlk :=
  let b := fld addr 22 18
  if b == 0 then (if fld addr 17 16 == 0 then .harbour (4 * fld addr 15 2) else .none)
  else if 4 ≤ b && b < 24 then .quay (b - 4) (4 * fld addr 13 2) else .none

/-- Whether the integration has a physical quay. -/
def State.fitted (s : State) (p : Nat) : Bool := s.physAll.contains p

/-! ## Answers and refusals -/

/-- The port's answer (R456). -/
def State.regAnswer (s : State) (resp rdata : Nat) : State := { s with regOut := some { resp := resp, rdata := BitVec.ofNat 32 rdata } }

/-- A refused access: counted in REFUSED_REG and logged as REG_REFUSED on the quay that serves it (R420, R471). -/
def State.regRefuse (s : State) (p off : Nat) (acc : Acc) : State :=
  ((s.countP p 0x29 1 { priv := some acc.priv, master := some acc.master }).evQ p .regRefused
    [(32, off), (8, acc.master), (2, s.sec.state.code), (2, s.pwr.state.code)]).regAnswer 1 0

/-! ## The harbour common block (R477 to R485) -/

/-- Offsets of the _LO registers of the pairs of R472. -/
def hLo : List Nat := [0x0C, 0x24, 0x2C, 0x34, 0x64, 0x88, 0x90]

/-- The 64-bit quantity of a pair. STEP and MOORED read 0 with no job (R479); the weight version reads 0 on a learner. -/
def State.hWide (s : State) (off : Nat) : Nat :=
  match off with
  | 0x0C => s.ident.uid
  | 0x24 => if s.jobOn then s.steps.last else 0
  | 0x2C => if s.jobOn then s.steps.moored else 0
  | 0x34 => s.tide.now
  | 0x64 => s.snap.stide
  | 0x88 => if s.ident.gen then s.refr.cur else 0
  | _ => s.crw.src

/-- H_STATUS (R478). -/
def State.hStatus (s : State) : Nat :=
  let degraded := s.reliefs.any (fun r => r.st != .inService) || (decide (5 ≤ s.boot.phase) && decide (s.lquays.length < s.fit.nActive))
  pack [(22, 0), (1, b2n s.ident.gen), (1, b2n s.tide.lost), (1, b2n s.quiet), (1, b2n (s.job.phase == .draining)),
    (1, b2n (s.job.phase == .starting)), (1, b2n s.jobOn), (3, s.grade.eff), (1, b2n degraded)]

/-- H_RELIEF (R478). -/
def State.hRelief (s : State) : Nat :=
  pack ((List.range 4).flatMap (fun d =>
    let q := s.quay (16 + d)
    [(4, if q.inService then s.lqOf (16 + d) else 15), (3, 0), (1, b2n q.inService)]))

/-- H_BOOT_STAT (R395). -/
def Boot.word (b : Boot) : Nat := pack [(16, b.gen), (8, b.error), (1, b2n b.otherOk), (1, b.copy), (2, b.source), (4, b.phase)]

/-- H_SEC_STAT (R418). -/
def State.secWord (s : State) : Nat :=
  pack [(16, s.sec.changes), (9, 0), (1, b2n s.sec.tamper), (1, b2n s.sec.loop), (1, b2n s.sec.presence), (1, b2n s.sec.strap),
    (1, b2n s.fit.labParts), (2, s.sec.state.code)]

/-- H_PWR_STAT (R422). -/
def Pwr.word (w : Pwr) : Nat :=
  let pend := match w.pending with
    | none => 0
    | some .idle => 1
    | some .hold => 2
    | some .run => 3
  pack [(24, 0), (4, w.reason), (2, pend), (2, w.state.code)]

/-- H_SB_STAT and H_SB_GLITCH (R466). -/
def Sb.word (b : Sb) : Nat :=
  pack [(24, 0), (1, b2n b.stopped), (1, b2n b.fsArmed), (1, b2n b.fsIn), (1, b2n b.stuck), (1, b2n b.unsettled), (3, b.gradeIn)]
def Sb.glitches (b : Sb) : Nat := pack [(8, b.glStop), (8, b.glGrade), (8, b.glLoop), (8, b.glPresence)]

/-- H_CRW_STAT (R430). -/
def Crw.word (c : Crw) : Nat := pack [(23, c.progress), (1, c.copy), (4, c.error), (4, c.state)]

/-- The configuration words of the harbour common block (R473). -/
def hConf (off : Nat) : Bool :=
  off == 0xA0 || (0x1000 ≤ off && off < 0x1180) || (0x1200 ≤ off && off < 0x1600) || (0x1800 ≤ off && off < 0x1FF8) ||
  (0x2000 ≤ off && off < 0x3000) || (0x4000 ≤ off && off < 0x6000)

/-- A configuration word as it reads: MYRIDX stands in H_REPLICA_CNT once logical quay 0 is enabled, CDIGEST in word 83 of a valid
convoy entry (R483, R485). -/
def State.hConfWord (s : State) (off : Nat) : Nat :=
  if off == 0xA0 then s.hw 0xA0 + (if s.serving 0 then 256 * s.myRidx else 0)
  else if 0x4000 ≤ off && (off - 0x4000) % 512 == 332 then
    let c := s.convoy ((off - 0x4000) / 512)
    if c.valid then c.digest else 0
  else s.hw off

/-- Offsets of the other registers of the block. -/
def hPlain : List Nat :=
  [0x00, 0x04, 0x08, 0x14, 0x18, 0x1C, 0x20, 0x40, 0x44, 0x48, 0x4C, 0x50, 0x54, 0x58, 0x5C, 0x60, 0x6C, 0x70, 0x80, 0x84, 0x98, 0x9C]

/-- Whether a register stands at an offset. -/
def hReg (off : Nat) : Bool := hPlain.contains off || hLo.contains off || (4 ≤ off && hLo.contains (off - 4)) || hConf off

/-- Registers an unprivileged master may read, the holding registers apart (R471, R477). -/
def hUser : List Nat := [0x00, 0x04, 0x08, 0x14, 0x1C, 0x20, 0x24, 0x28, 0x2C, 0x30, 0x34, 0x38, 0x80, 0x84, 0x88, 0x8C]

/-- The value of a register that is no part of a pair; WO registers and offsets with no register read 0 (R13, R469, R470). -/
def State.hPlainWord (s : State) (off : Nat) : Nat :=
  if off == 0x00 then 0x00030001
  else if off == 0x04 then s.hStatus
  else if off == 0x08 then s.ident.device
  else if off == 0x14 then s.physIn.foldl (fun a p => a + 2 ^ p) 0
  else if off == 0x18 then s.hRelief
  else if off == 0x1C then (if s.jobOn then s.job.tag else 0)
  else if off == 0x20 then s.job.epoch
  else if off == 0x40 then s.boot.word
  else if off == 0x48 then s.secWord
  else if off == 0x50 then s.pwr.word
  else if off == 0x54 then s.ev.alarm.toNat
  else if off == 0x58 then s.irqBits.toNat
  else if off == 0x5C then s.ev.irqMask.toNat
  else if off == 0x60 then pack [(2, 0), (1, b2n s.snap.user), (28, 0), (1, b2n s.snap.busy)]
  else if off == 0x6C then s.sb.word
  else if off == 0x70 then s.sb.glitches
  else if off == 0x84 then pack [(16, s.refr.passVer / 2 ^ 32), (14, 0), (1, b2n s.refr.batchMixed), (1, b2n s.refr.batchNone)]
  else if off == 0x9C then s.crw.word
  else if hConf off then s.hConfWord off
  else 0

/-- Read a pair through its latch: the low word latches the high one, the high word takes the latch or reads live (R472). -/
def pairRead (latch : Tbl Nat Word) (lo : Nat) (high : Bool) (v : Nat) : Tbl Nat Word × Nat :=
  if high then
    match latch.find lo with
    | some w => (latch.del lo, w.toNat)
    | none => (latch, v / 2 ^ 32 % 2 ^ 32)
  else (latch.set lo (BitVec.ofNat 32 (v / 2 ^ 32)), v % 2 ^ 32)

/-- Read a word of the harbour common block with its side effect: H_BATCH_OPEN closes and opens a pass (R291), H_SB_GLITCH is
cleared (R470), pairs latch. -/
def State.hRead (s : State) (off : Nat) : State × Nat :=
  if hLo.contains off then
    let r := pairRead s.hLatch off false (s.hWide off)
    ({ s with hLatch := r.1 }, r.2)
  else if 4 ≤ off && hLo.contains (off - 4) then
    let r := pairRead s.hLatch (off - 4) true (s.hWide (off - 4))
    ({ s with hLatch := r.1 }, r.2)
  else if off == 0x80 then
    let s1 := s.batchOpen
    (s1, s1.refr.passVer % 2 ^ 32)
  else if off == 0x70 then
    ({ s with sb := { s.sb with glPresence := 0, glLoop := 0, glGrade := 0, glStop := 0 } }, s.hPlainWord off)
  else (s, s.hPlainWord off)

/-! ## Quay blocks (R486 to R490) -/

/-- Q_STATUS (R487). -/
def State.qStatus (s : State) (p : Nat) : Nat :=
  let q := s.quay p
  pack [(18, 0), (1, b2n (decide (16 ≤ p) && !q.inService)), (5, p), (4, s.lqOf p), (1, b2n q.cfgIgn), (1, b2n q.chkFail),
    (1, b2n q.inService), (1, b2n q.enabled)]

/-- Q_SUSPECT (R487). -/
def Quay.suspWord (q : Quay) : Nat := pack ((2, 0) :: (List.range 8).map (fun u => (2, (q.susp.get {} (u + 1)).st)))

/-- The value the parameter window shows, and Q_PARAM_STAT (R489). -/
def State.parWord (s : State) (p : Nat) : Nat :=
  match paramOfKey (s.quay p).paramKey.toNat with
  | none => 0
  | some x => (s.param? p x).getD 0 % 2 ^ 64
def State.parStat (s : State) (p : Nat) : Nat :=
  match paramOfKey (s.quay p).paramKey.toNat with
  | none => 0
  | some x =>
    let src := match (((s.quay p).params.find x).map (·.src)).getD .default with
      | .default => 0
      | .profile => 1
      | .harbour => 2
      | .quay => 3
    pack [(28, 0), (2, src), (1, b2n (s.param? p x).isSome), (1, 1)]

/-- Word `w` of the head entry of the error queue (R367); a queued record has no number of the event ring. -/
def QEv.head (e : QEv) (w : Nat) : Nat :=
  match e.errq with
  | [] => 0
  | r :: _ => byt (r.bytes 0) (4 * w + 3) (4 * w)

/-- Holding registers and Q_HOLD_WRAP. -/
def qHold (off : Nat) : Bool := off == 0x1C8 || (0x200 ≤ off && off < 0x300)

/-- Whether a register stands at an offset of a quay block. -/
def qReg (off : Nat) : Bool :=
  [0x00, 0x04, 0x08, 0x0C, 0x10, 0x14, 0x20, 0x24, 0x28, 0x2C, 0x60, 0x64, 0x68, 0x80, 0x84].contains off ||
  (0x40 ≤ off && off < 0x58) || (0xC0 ≤ off && off < 0x1CC) || qHold off || (0x1000 ≤ off && off < 0x2000)

/-- Registers an unprivileged master may read, the holding registers apart. -/
def qUser (off : Nat) : Bool := [0x00, 0x04, 0x10, 0x14].contains off || (0x40 ≤ off && off < 0x58)

/-- The pairs of a quay block: _LO offset and quantity. -/
def State.qWide (s : State) (p off : Nat) : Option Nat :=
  if off == 0x10 then some s.tide.now
  else if off == 0x28 then some (s.parWord p)
  else if 0x200 ≤ off && off < 0x300 && off % 8 == 0 then some ((s.quay p).cnt.hold.get 0 ((off - 0x200) / 8))
  else none

/-- The value of a register that is no part of a pair. -/
def State.qPlainWord (s : State) (p off : Nat) : Nat :=
  let q := s.quay p
  let n := off / 4 % 16
  if off == 0x00 then 0x00030001
  else if off == 0x04 then s.qStatus p
  else if off == 0x0C then q.suspWord
  else if off == 0x20 then q.paramKey.toNat
  else if off == 0x24 then s.parStat p
  else if 0x40 ≤ off && off < 0x58 then s.berthStat p n
  else if off == 0x60 then q.flip0.toNat
  else if off == 0x64 then q.flip1.toNat
  else if off == 0x68 then q.flip2.toNat
  else if off == 0x80 then pack [(7, q.ev.errq.length), (24, 0), (1, b2n q.ev.errqOvf)]
  else if 0xC0 ≤ off && off < 0x100 then q.ev.head n
  else if 0x100 ≤ off && off < 0x140 then q.cnt.selReg n
  else if 0x140 ≤ off && off < 0x180 then (q.cnt.amatch.get 0 n).toNat
  else if 0x180 ≤ off && off < 0x1C0 then (q.cnt.amask.get 0 n).toNat
  else if off == 0x1C0 then q.cnt.wrap.toNat
  else if off == 0x1C4 then q.cnt.irqEn.toNat
  else if off == 0x1C8 then q.cnt.holdWrap.toNat
  else if 0x1000 ≤ off && off < 0x2000 then q.rw off
  else 0

/-- Whether physical quay `p` is a relief quay not in service, of whose block only Q_VERSION and Q_STATUS are live (R491). -/
def State.spare (s : State) (p : Nat) : Bool := decide (16 ≤ p) && !(s.quay p).inService

/-- What a register of a spare quay reads: its reset value. -/
def spareWord (off : Nat) : Nat := if 0x100 ≤ off && off < 0x140 then 0xFF0 else 0

/-- Read a word of a quay block, with its latch. -/
def State.qRead (s : State) (p off : Nat) : State × Nat :=
  if s.spare p && off != 0x00 && off != 0x04 then (s, spareWord off) else
  let put := fun (t : Tbl Nat Word) => s.modQuay p (fun q => { q with latch := t })
  match s.qWide p off with
  | some v =>
    let r := pairRead (s.quay p).latch off false v
    (put r.1, r.2)
  | none =>
    match (if off < 4 then none else s.qWide p (off - 4)) with
    | some v =>
      let r := pairRead (s.quay p).latch (off - 4) true v
      (put r.1, r.2)
    | none => (s, s.qPlainWord p off)

/-! ## Reads -/

/-- What a failed quay, or one not fitted, answers: the integrator answers in its place, and the manual does not say what
(R457, R468). -/
def State.regForeign (s : State) : State :=
  let a := s.takeFree
  let b := a.2.takeFree
  b.2.regAnswer (a.1 % 4) (b.1 % 2 ^ 32)

/-- Whether Hold answers a read: H_VERSION, H_SEC_STAT and H_PWR_STAT (R429). -/
def holdReads : List Nat := [0x00, 0x48, 0x50]

/-- Read of a register (R469 to R472); an offset with no register is answered OK to every master: DEDUCED (log 134). -/
def State.regRead (s : State) (addr : Nat) (acc : Acc) : State :=
  let hold := s.pwr.state == .hold
  match regBlk addr with
  | .none => s.regAnswer 2 0
  | .harbour off =>
    if hold && !holdReads.contains off then s.regAnswer 1 0
    else if !hReg off then s.regAnswer 0 0
    else if !acc.priv && !hUser.contains off && !((off == 0x64 || off == 0x68) && s.snap.user) then s.regRefuse s.q0 off acc
    else
      let r := s.hRead off
      r.1.regAnswer 0 r.2
  | .quay p off =>
    if !s.fitted p || (s.quay p).failed then s.regForeign
    else if hold then s.regAnswer 1 0
    else if !qReg off then s.regAnswer 0 0
    else if !acc.priv && !qUser off && !(qHold off && s.snap.user) then s.regRefuse p off acc
    else
      let r := s.qRead p off
      r.1.regAnswer 0 r.2

/-! ## Writes -/

/-- Answer OK. -/
def State.regOk (s : State) : State := s.regAnswer 0 0

/-- A configuration write of the harbour common block (R474). -/
def State.hConfWrite (s : State) (off : Nat) (acc : Acc) (x : Nat) : State :=
  if !s.maint || (s.boot.phase != 5 && s.boot.phase != 6) then s.regRefuse s.q0 off acc
  else if s.physIn.any (fun p => (s.quay p).enabled) then
    let s1 := foldS (s.physIn.filter (fun p => (s.quay p).enabled)) (fun p s => s.modQuay p (fun q => { q with cfgIgn := true })) s
    (s1.evH .configWriteIgnored [(32, off), (8, acc.master)]).regOk
  else if hMask off == 0 then s.regOk
  else (s.setHw off (x &&& hMask off)).regOk

/-- H_WARM (R397, R432). -/
def State.warmWrite (s : State) (off : Nat) (acc : Acc) (x : Nat) : State :=
  if !s.maint || s.pwr.state != .run then s.regRefuse s.q0 off acc
  else if fld x 31 16 != 0x5741 || !bitOf x 0 then s.regOk
  else if s.job.phase != .none || s.crwBusy then s.regRefuse s.q0 off acc
  else if !(s.quay 0).inService then (s.evH .charterPortUnavailable).regOk
  else State.regOk { s with boot := { s.boot with warmReq := true } }

/-- H_CRW_CTL (R430). -/
def State.crwWrite (s : State) (off : Nat) (acc : Acc) (x : Nat) : State :=
  if !s.maint || s.pwr.state != .run then s.regRefuse s.q0 off acc
  else if fld x 31 16 != 0x4352 then s.regOk
  else
    let s1 := if bitOf x 1 then s.crwAbort else s
    if !bitOf x 0 then s1.regOk
    else if s.crwBusy then s1.regRefuse s.q0 off acc
    else s1.crwStart.regOk

/-- H_PWR_CTL (R422). -/
def State.pwrWrite (s : State) (off : Nat) (acc : Acc) (x : Nat) : State :=
  match fld x 1 0 with
  | 0 => (s.pwrReq (fld x 31 16) .run).regOk
  | 1 => (s.pwrReq (fld x 31 16) .idle).regOk
  | 2 => (s.pwrReq (fld x 31 16) .hold).regOk
  | _ => s.regRefuse s.q0 off acc

/-- H_CNT_SNAP (R381). -/
def State.snapWrite (s : State) (off : Nat) (acc : Acc) (x : Nat) : State :=
  if !bitOf x 0 then State.regOk { s with snap := { s.snap with user := bitOf x 2 } }
  else if s.snap.busy then s.regRefuse s.q0 off acc
  else State.regOk { s with snap := { s.snap with busy := true, user := bitOf x 2, clear := bitOf x 1, at_ := s.tide.now + 1024 } }

/-- A privileged write of the harbour common block: RO registers and offsets with no register change nothing (R469, R470). -/
def State.hWrite (s : State) (off : Nat) (acc : Acc) (x : Nat) : State :=
  if hConf off then s.hConfWrite off acc x
  else if off == 0x44 then s.warmWrite off acc x
  else if off == 0x4C then s.pwrWrite off acc x
  else if off == 0x54 then
    State.regOk { s with ev := { s.ev with alarm := s.ev.alarm &&& ~~~(BitVec.ofNat 32 x &&& ~~~s.alarmLive) } }
  else if off == 0x58 then State.regOk { s with ev := { s.ev with irqStat := s.ev.irqStat &&& ~~~(BitVec.ofNat 4 x &&& 0xE#4) } }
  else if off == 0x5C then State.regOk { s with ev := { s.ev with irqMask := BitVec.ofNat 4 x } }
  else if off == 0x60 then s.snapWrite off acc x
  else if off == 0x6C then
    if bitOf x 27 && !s.sb.presForced then State.regOk { s with sb := { s.sb with stuck := false } } else s.regOk
  else if off == 0x90 then State.regOk { s with crw := { s.crw with src := s.crw.src / 2 ^ 32 * 2 ^ 32 + (x % 2 ^ 32) / 128 * 128 } }
  else if off == 0x94 then State.regOk { s with crw := { s.crw with src := s.crw.src % 2 ^ 32 + x % 256 * 2 ^ 32 } }
  else if off == 0x98 then s.crwWrite off acc x
  else s.regOk

/-- Q_CTL with its KEY right and one of ENABLE and DISABLE set, past its conditions (R476). A quay that start-up left disabled has its
control lines of memory initialised with its first enable (R394 stage 5); while logical quay 0 is disabled no record reaches the
event ring. -/
def State.qCtl (s : State) (p : Nat) (en : Bool) : State :=
  let q := s.quay p
  if q.enabled == en then s
  else if !en then
    let s1 := s.disableQuay p
    if q.lq == some 0 then { s1 with ev := { s1.ev with reach := false } } else s1
  else
    let s1 := s.enableQuay p
    if !(s1.quay p).enabled then s1 else
    let l := s.lqOf p
    let s2 := if s.boot.phase == 6 && q.chkFail then s1.initLines l
              else if l == 0 && !s1.ev.reach then s1.evReopen else s1
    if s2.allEnabled && s2.boot.phase == 6 && s2.boot.error == 3 then { s2 with boot := { s2.boot with phase := 5, error := 0 } } else s2

/-- A write of Q_CTL (R476). -/
def State.qCtlWrite (s : State) (p off : Nat) (acc : Acc) (x : Nat) : State :=
  if fld x 31 16 == 0x5143 && bitOf x 0 != bitOf x 1 && s.maint && s.pwr.state == .run && s.job.phase == .none &&
      (s.boot.phase == 5 || s.boot.phase == 6) && (s.quay p).inService then (s.qCtl p (bitOf x 0)).regOk
  else s.regRefuse p off acc

/-- A configuration write of a quay block (R474, R489): a word of the region table, or the parameter window. -/
def State.qConfWrite (s : State) (p off : Nat) (acc : Acc) (x : Nat) : State :=
  let q := s.quay p
  if !s.maint || (s.boot.phase != 5 && s.boot.phase != 6) then s.regRefuse p off acc
  else if q.enabled then
    ((s.modQuay p (fun q => { q with cfgIgn := true })).evQ p .configWriteIgnored [(32, off), (8, acc.master)]).regOk
  else if off == 0x2C then (s.modQuay p (fun q => { q with paramHi := some (BitVec.ofNat 32 x) })).regOk
  else if off == 0x28 then
    match paramOfKey q.paramKey.toNat with
    | none => s.regOk
    | some k =>
      let hi := (q.paramHi.map (·.toNat)).getD (s.parWord p / 2 ^ 32)
      (s.modQuay p (fun q => { q with paramHi := none, params := q.params.set k { val := x % 2 ^ 32 + hi * 2 ^ 32, src := .quay } })).regOk
  else (s.modQuay p (fun q => { q with qcfg := q.qcfg.set off (BitVec.ofNat 32 (x &&& qMask off)) })).regOk

/-- A write of a flip-mask register (R338). -/
def State.flipWrite (s : State) (p off : Nat) (acc : Acc) (x : Nat) : State :=
  let w := BitVec.ofNat 32 x
  if !s.maint then s.regRefuse p off acc
  else (s.modQuay p (fun q =>
    if off == 0x60 then { q with flip0 := w }
    else if off == 0x64 then { q with flip1 := w }
    else { q with flip2 := if fld x 19 16 ≤ 4 then w &&& 0x800F7FFF#32 else w &&& 0x000F7FFF#32 })).regOk

/-- Remove the head of an error queue; codes merged in entry 63 are forgotten with it (R367). -/
def QEv.pop (e : QEv) : QEv :=
  { e with errq := e.errq.drop 1, errqMixed := if e.errq.length ≤ 1 then [] else e.errqMixed }

/-- A privileged write of a quay block. On a spare quay only the configuration registers take writes (R491). -/
def State.qWrite (s : State) (p off : Nat) (acc : Acc) (x : Nat) : State :=
  let w := BitVec.ofNat 32 x
  let n := off / 4 % 16
  let cnt := fun (f : Cnt → Cnt) => (s.modQuay p (fun q => { q with cnt := f q.cnt })).regOk
  if off == 0x28 || off == 0x2C || (0x1000 ≤ off && off < 0x2000) then s.qConfWrite p off acc x
  else if off == 0x08 then s.qCtlWrite p off acc x
  else if s.spare p then s.regOk
  else if off == 0x04 then (if bitOf x 28 then s.modQuay p (fun q => { q with cfgIgn := false }) else s).regOk
  else if off == 0x20 then (s.modQuay p (fun q => { q with paramKey := w })).regOk
  else if off == 0x60 || off == 0x64 || off == 0x68 then s.flipWrite p off acc x
  else if off == 0x80 then (if bitOf x 31 then s.modQuay p (fun q => { q with ev := { q.ev with errqOvf := false } }) else s).regOk
  else if off == 0x84 then (if bitOf x 0 then s.modQuay p (fun q => { q with ev := q.ev.pop }) else s).regOk
  else if 0x100 ≤ off && off < 0x140 then cnt (fun c => { c with sel := c.sel.set n (w &&& 0xFFFFFFF8#32) })
  else if 0x140 ≤ off && off < 0x180 then cnt (fun c => { c with amatch := c.amatch.set n (w &&& 0x0FFFFFFF#32) })
  else if 0x180 ≤ off && off < 0x1C0 then cnt (fun c => { c with amask := c.amask.set n (w &&& 0x0FFFFFFF#32) })
  else if off == 0x1C0 then cnt (fun c => { c with wrap := c.wrap &&& ~~~w })
  else if off == 0x1C4 then cnt (fun c => { c with irqEn := w })
  else s.regOk

/-- Write of a register. In Hold only H_PWR_CTL takes writes (R429). -/
def State.regWrite (s : State) (addr : Nat) (acc : Acc) (x : Nat) : State :=
  let hold := s.pwr.state == .hold
  match regBlk addr with
  | .none => s.regAnswer 2 0
  | .harbour off =>
    if hold && off != 0x4C then s.regAnswer 1 0
    else if !hReg off then s.regOk
    else if !acc.priv then s.regRefuse s.q0 off acc
    else s.hWrite off acc x
  | .quay p off =>
    if !s.fitted p || (s.quay p).failed then s.regForeign
    else if hold then s.regAnswer 1 0
    else if !qReg off then s.regOk
    else if !acc.priv then s.regRefuse p off acc
    else s.qWrite p off acc x

/-- The byte address of a word of a quay block (R467). -/
def qAddr (p off : Nat) : Nat := 0x100000 + p * 0x40000 + off

/-! ## The counter snapshot (R381, R382, R490) -/

/-- A quay copies its counters into its holding registers. -/
def Cnt.snap (c : Cnt) (clear : Bool) : Cnt :=
  let c' := { c with hold := c.live, holdWrap := c.wrap }
  if clear then { c' with live := [], wrap := 0 } else c'

/-- The snapshot image: header line and 20 blocks of 32 counters. -/
def State.snapImage (s : State) : Nat :=
  let mask := s.physIn.foldl (fun a p => a + 2 ^ p) 0
  let head := withCrc 128 (pack [(64, s.snap.stide), (32, s.snap.sseq), (32, mask)])
  pack ((1024, head) :: (List.range 20).flatMap (fun p => (List.range 32).map (fun c => (64, (s.quay p).cnt.hold.get 0 c))))

/-- A snapshot is complete: BUSY clears and CNT is set (R382). -/
def State.snapDone (s : State) : State := State.setIrq { s with snap := { s.snap with busy := false, writing := false } } 3

/-- Whether lines of the snapshot image are still on their way to memory. -/
def State.snapOut (s : State) : Bool :=
  let base := s.hpar .cntBase
  (s.lquay 0).mc.any (fun c => decide (lineOf base ≤ c.addr) && decide (c.addr < base + 5248))

/-- BUSY clears once the image is written (R382). -/
def State.snapGo (s : State) : State := if s.snap.writing && !s.snapOut then s.snapDone else s

/-- COUNTER_SNAPSHOT: T_s is reached (R381); the holding registers go on the control class, and the image goes to memory (R382). -/
def State.snapshot (s : State) : State :=
  if !s.snap.busy || s.snap.writing || s.tide.now < s.snap.at_ then s else
  let s1 := foldS s.physIn (fun p s => s.modQuay p (fun q => { q with cnt := q.cnt.snap s.snap.clear })) s
  let s2 := { s1 with snap := { s1.snap with clear := false, stide := s1.snap.at_, sseq := s1.snap.sseq + 1 } }
  let base := s.hpar .cntBase
  if base == 0 || !s2.serving 0 then s2.snapDone else
  let s3 := (foldS s2.lquays (fun l s => s.ringTo l 0 4 (.snapshot s.snap.stide)) s2).ownWrite 0 base 5248 s2.snapImage
  State.snapGo { s3 with snap := { s3.snap with writing := true } }

end Sys2Proof.Machine
end

