-- ==== Sys2Proof/Machine/Tap.lean ====
section
/-! DEFINITION. The test access ports (R427, R428, R461), heartbeats and the harbour ring's link ends (R162, R453 to R455), and
the link and the flit credits of the peer port (R449, R452). -/

namespace Sys2Proof.Machine

/-! ## The test access ports -/

/-- A TAP instruction's code (R427). -/
inductive TapIr where
  | bypass | idcode | sample | extest | clamp | highz | dbgReg | dbgAddr | dbgData
  deriving DecidableEq, Repr

def TapIr.code : TapIr → Nat
  | .bypass => 0xFF
  | .idcode => 0x01
  | .sample => 0x02
  | .extest => 0x00
  | .clamp => 0x03
  | .highz => 0x04
  | .dbgReg => 0x10
  | .dbgAddr => 0x11
  | .dbgData => 0x12

/-- Whether an instruction is permitted (R427, R429). -/
def State.tapMay (s : State) (i : TapIr) : Bool :=
  let awake := s.pwr.state != .hold
  let pins := s.maint && s.job.phase == .none && s.pwr.state == .run
  let mem := s.pwr.state == .run && ((s.sec.state == .maintenance && s.job.phase == .none) || s.sec.state == .opened)
  match i with
  | .bypass | .idcode => true
  | .sample => awake
  | .extest | .clamp | .highz => pins
  | .dbgReg => awake && s.maint
  | .dbgAddr | .dbgData => mem

def State.tap (s : State) (p : Nat) : Tap := s.taps.get {} p
def State.setTap (s : State) (p : Nat) (t : Tap) : State := { s with taps := s.taps.set p t }

/-- Select an instruction on the TAP of quay `p`, and let `k` make its data register; one not permitted selects BYPASS and logs
TAP_REFUSED. -/
def State.tapDo (s : State) (p : Nat) (i : TapIr) (k : State → State) : State :=
  if !s.fitted p then s else
  let t := s.tap p
  if s.tapMay i then k (s.setTap p { t with ir := i.code, dr := 0, drive := i == .extest || i == .clamp, hiz := i == .highz })
  else (s.setTap p { t with ir := 0xFF, dr := 0, drive := false, hiz := false }).evQ p .tapRefused [(8, i.code), (2, s.sec.state.code)]

/-- IDCODE (R428). -/
def State.idcodeWord (s : State) : Nat := pack [(1, 1), (11, s.fit.tapMfr), (16, 0x3A71), (4, 1)]

/-- The output cells 7 to 12 of a quay: ALARM, IRQ, MARGIN_REQ; a quay not in service drives none of them (R372, R461, R462). -/
def State.outCells (s : State) (p : Nat) : Nat :=
  if (s.quay p).inService then s.outPins else 0

/-- The boundary register as captured: the pins of the operand, with the block's own outputs in cells 7 to 12. -/
def State.capture (s : State) (p : Nat) (pins : BitVec 32) : BitVec 32 :=
  BitVec.ofNat 32 (setFld pins.toNat 12 7 (s.outCells p))

/-- SAMPLE/PRELOAD: capture the boundary, preload the output latches. -/
def State.tapSample (s : State) (p : Nat) (pins preload : BitVec 32) : State :=
  s.tapDo p .sample (fun s => s.setTap p { s.tap p with bsr := s.capture p pins, latch := preload })

/-- EXTEST: drive the outputs from the boundary register and capture the raw pins. -/
def State.tapExtest (s : State) (p : Nat) (pins drive : BitVec 32) : State :=
  s.tapDo p .extest (fun s => s.setTap p { s.tap p with bsr := pins, latch := drive })

/-- DBG_REG at Update-DR: one access as a privileged master 0xFF; what the next Capture-DR loads (R428). -/
def State.tapReg (s : State) (p : Nat) (dr : BitVec 64) : State :=
  s.tapDo p .dbgReg (fun s =>
    let acc : Acc := { priv := true, master := 0xFF }
    let addr := fld dr.toNat 55 32
    let s1 := if bitOf dr.toNat 63 then s.regWrite addr acc (fld dr.toNat 31 0) else s.regRead addr acc
    let r := s1.regOut.getD { resp := 1, rdata := 0 }
    let s2 := { s1 with regOut := s.regOut }
    s2.setTap p { s2.tap p with regOut := BitVec.ofNat 64 (pack [(32, r.rdata.toNat), (31, 0), (1, b2n (r.resp == 0))]) })

/-- DBG_MEM_ADDR at Update-DR: one line read of a logical quay through the read path (R428). -/
def State.tapAddr (s : State) (p : Nat) (dr : BitVec 48) : State :=
  s.tapDo p .dbgAddr (fun s =>
    let l := fld dr.toNat 47 44
    let a := lineOf (fld dr.toNat 39 0)
    let put := fun (s : State) (st : Nat) (tag : Option Nat) =>
      s.setTap p { s.tap p with memLine := 0, memCrc := 0, memPoison := false, memValid := false, memStatus := st, memTag := tag }
    if !s.serving l then put s 1 none
    else if (s.regionOf l a).isNone then put s 2 none
    else (put s 3 (some (l * 2 ^ 40 + a))).readReq l (.debug p) 0 a true 0xFF)

/-- The answer of a debug read comes back to its TAP. -/
def State.tapFin (s : State) (l p : Nat) (f : Fin) : State :=
  let t := s.tap p
  if t.memTag != some (l * 2 ^ 40 + lineOf f.addr) then s
  else if f.status == 0 then
    s.setTap p { t with memLine := f.data, memCrc := lineCrc f.data, memPoison := f.poison, memValid := true, memStatus := 0, memTag := none }
  else s.setTap p { t with memStatus := 1, memTag := none }

/-- DBG_MEM_DATA captures the result (R428). -/
def State.tapData (s : State) (p : Nat) : State :=
  s.tapDo p .dbgData (fun s =>
    let t := s.tap p
    s.setTap p { t with dr := pack [(1024, t.memLine.toNat), (32, t.memCrc), (1, b2n t.memPoison), (1, b2n t.memValid), (2, t.memStatus)] })

/-- TAP_RESET: the test logic starts over, and no security or power state changes (R427). -/
def State.tapReset (s : State) (p : Nat) : State :=
  if !s.fitted p then s else s.setTap p { s.tap p with ir := 0x01, drive := false, hiz := false, dr := 0 }

/-! ## The harbour ring (R22, R453 to R455) -/

/-- HR_FLIT_CREDIT. -/
def State.ringCredit (s : State) (p : Nat) (east : Bool) (cls : Nat) : State :=
  if !s.fitted p || cls == 0 || decide (6 < cls) then s else
  let e := s.ring.get {} (p, east)
  { s with ring := s.ring.set (p, east) (ringDrain s.slotWeights e.txq.length { e with crd := e.crd.set cls (e.crd.get 16 cls + 1) }) }

/-- The quay that watches quay `p`: logical quay 0, itself watched by the quay of the lowest other logical index (R162). -/
def State.watcher (s : State) (p : Nat) : Option Nat :=
  match s.phys 0 with
  | some z => if z == p then (s.lquays.filter (· ≠ 0)).head?.bind s.phys else some z
  | none => (s.lquays.filter (· ≠ 0)).head?.bind s.phys

/-- HEARTBEAT_SEND: a heartbeat on the control class to the watching quay; the run of missed ones ends. In Hold all clocks stand. -/
def State.heartbeat (s : State) (p : Nat) : State :=
  if !(s.quay p).inService || s.pwr.state == .hold then s else
  let s1 := s.modQuay p (fun q => { q with hb := 0 })
  match s1.watcher p with
  | none => s1
  | some w => s1.ringSend p w 4 .heartbeat

/-- HEARTBEAT_MISSED: the watching quay misses one; after four in a row it declares the quay failed (R162). -/
def State.heartbeatLost (s : State) (p : Nat) : State :=
  if !(s.quay p).inService || s.pwr.state == .hold || (s.watcher p).isNone then s else
  let n := (s.quay p).hb + 1
  let s1 := s.modQuay p (fun q => { q with hb := q.hb + 1 })
  if n < 4 then s1 else s1.fatal p

/-- RING_LINK_FAILURE (R455). -/
def State.ringLost (s : State) (p : Nat) : State := if (s.quay p).inService then s.fatal p else s

/-! ## Link and credits of the peer port -/

/-- PP_LINK_DOWN: credits are discarded, sending stops (R452). -/
def State.linkDown (s : State) (l : Nat) : State :=
  s.modPort l (fun p => { p with peer := { p.peer with up := false, crd := [], grant := [], kept := [] } })

/-- PP_LINK_UP: both sides start from the initial credits; the interface's come as PP_FLIT_CREDIT (R448, R452). A position that grants
none now, in Hold, disabled or while the crossbar switches, keeps its own until it takes packets again (R423, R425, R435, R476). -/
def State.linkUp (s : State) (l : Nat) : State :=
  let start := (List.range 8).map (fun v => (v, initialCredits.getD v 0))
  let open_ := s.rxOpen l
  (s.modPort l (fun p => { p with peer :=
    { p.peer with up := true, crd := [], kept := if open_ then [] else start, grant := if open_ then start else [] } })).peerPump l

/-- PP_FLIT_CREDIT (R449). -/
def State.linkCredit (s : State) (l vc : Nat) : State :=
  if !(s.port l).peer.up then s else
  (s.modPort l (fun p => { p with peer := { p.peer with crd := p.peer.crd.set (vc % 8) (p.peer.crd.get 0 (vc % 8) + 1) } })).peerPump l

end Sys2Proof.Machine
end

