-- ==== Sys2Proof/Machine/Manifest.lean ====
section
/-! DEFINITION. The manifest rings (02): the checks of R51, acting on a manifest, the scan of a ring, held manifests, the hold
prefetch order (R324), park and resume (R57). -/

namespace Sys2Proof.Machine

/-! ## The checks (R48 to R52) -/

/-- The reserved bits of a manifest as (high, low), by TYPE, beside those of the header (R9, R48). -/
def manResBits : Nat → List (Nat × Nat)
  | 0x1 => [(423, 418), (959, 424)]
  | 0x2 => [(959, 272)]
  | 0x3 => [(263, 260), (271, 265), (287, 272), (343, 340), (367, 364), (383, 368), (959, 448)]
  | 0x4 => [(279, 275), (287, 280), (479, 464), (567, 564), (591, 588), (615, 612), (639, 616), (959, 768)]
  | 0x5 => [(959, 256)]
  | 0x6 => [(959, 264)]
  | 0x7 => [(271, 268), (311, 306), (959, 416)]
  | 0x8 => [(271, 268), (287, 286), (471, 465), (479, 472), (959, 672)]
  | 0x9 => [(271, 268), (287, 282), (302, 300), (318, 316), (334, 332), (351, 344), (959, 560)]
  | 0xA => [(271, 268), (287, 272), (959, 416)]
  | 0xB => [(959, 416)]
  | 0xC => [(375, 369), (383, 376), (959, 416)]
  | 0xD => [(271, 268), (295, 292), (319, 296), (383, 360), (959, 416)]
  | 0xE => [(271, 264), (959, 384)]
  | 0xF => [(287, 272), (959, 320)]
  | 0x10 => [(287, 272), (959, 320)]
  | _ => []

/-- Whether a reserved field is not zero. -/
def manReserved (m : Nat) : Bool :=
  ([(31, 16), (95, 80), (255, 240), (991, 960)] ++ manResBits (manType m)).any (fun b => fld m b.1 b.2 != 0)

/-- Whether a TYPE belongs to a ring: verdicts to the verdict ring, the others of R49 to the host ring. -/
def manRing (verdict : Bool) (ty : Nat) : Bool := if verdict then ty == 3 else decide (1 ≤ ty) && decide (ty ≤ 0x10) && ty != 3

/-- The JOB check of R51 and R52. -/
def State.manJobOk (s : State) (m : Nat) : Bool :=
  let mine := s.jobOn && manJob m == s.job.tag
  let none := manJob m == 0
  match manType m with
  | 0x4 => none
  | 0x6 => if s.jobOn then mine else none
  | 0xC => none || mine
  | 0xD => none || mine
  | 0xF => mine || (none && byt m 32 32 == 1)
  | 0x10 => mine || (none && byt m 32 32 == 1)
  | _ => mine

/-- The EPOCH check of R51: a verdict has its own rule (R142), a job start is checked once no job is left (R175). -/
def State.manEpochOk (s : State) (m : Nat) : Bool :=
  manType m == 3 || (manType m == 4 && s.job.phase != .none) || manEpoch m == s.job.epoch

/-- The first check of R51 that a manifest fails: 1 MCRC to 6 EPOCH, 0 where all pass. `readOk`: its line read without poison or
error (R50). -/
def State.manCheck (s : State) (verdict : Bool) (idx m : Nat) (readOk : Bool) : Nat :=
  if !readOk || !crcOk 128 m then 1
  else if manSeq m != idx then 2
  else if manReserved m then 3
  else if !manRing verdict (manType m) then 4
  else if !s.manJobOk m then 5
  else if !s.manEpochOk m then 6
  else 0

/-! ## Rejecting (R51) -/

/-- One of the two rings; change it. -/
def State.mring (s : State) (verdict : Bool) : Ring := if verdict then s.man.verdict else s.man.host

def State.modRing (s : State) (verdict : Bool) (f : Ring → Ring) : State :=
  if verdict then { s with man := { s.man with verdict := f s.man.verdict } } else { s with man := { s.man with host := f s.man.host } }

/-- Count a rejection, once, in REJECTED of the ring and of the counters. -/
def State.manReject (s : State) (verdict : Bool) : State := (s.modRing verdict (fun r => { r with rej := r.rej + 1 })).countH 0x13

/-- A rejection by a check of R51: counted, also as a stale-job or a fenced manifest, and logged with ring, index and check. -/
def State.manFail (s : State) (verdict : Bool) (idx check : Nat) : State :=
  let s1 := (s.manReject verdict).evH .formatError [(32, b2n verdict), (32, idx), (32, check)]
  if check == 5 then s1.countH 0x14 else if check == 6 then s1.countH 0x15 else s1

/-- A rejection by a rule of the manifest's type that names no event: check code 7 and the TYPE. -/
def State.manBad (s : State) (verdict : Bool) (idx m : Nat) : State :=
  (s.manReject verdict).evH .formatError [(32, b2n verdict), (32, idx), (32, 7), (16, manType m)]

/-! ## The hold prefetch order (R324) -/

/-- The order table of a manifest: its layers as lists of (region, quay, first page, count), none when R324 rejects it. A table whose
lines do not read, whose reserved bytes are set or whose layers name ranges it does not have fails as one whose TCRC does (log 40). -/
def State.orderTable (s : State) (m : Nat) : Option HoldOrder :=
  let addr := byt m 39 32
  let nl := byt m 41 40
  let nr := byt m 45 42
  let n := 8 * nl + 16 * nr
  let v := s.readB 0 addr n
  let lays := (List.range nl).map (fun i => fld v (64 * i + 63) (64 * i))
  let rngs := (List.range nr).map (fun i => fld v (64 * nl + 128 * i + 127) (64 * nl + 128 * i))
  let rng := fun (r : Nat) => (byt r 0 0, fld r 11 8, byt r 11 8, byt r 15 12)
  let inRegion := fun (x : Nat × Nat × Nat × Nat) =>
    let g := (s.lquay x.2.1).region x.1
    decide (x.2.1 < s.fit.nActive) && g.valid && g.kind == 6 && decide (16 * (x.2.2.1 + x.2.2.2) ≤ g.size)
  let meets := fun (a b : Nat × Nat × Nat × Nat) => a.1 == b.1 && a.2.1 == b.2.1 &&
    decide (a.2.2.1 < b.2.2.1 + b.2.2.2) && decide (b.2.2.1 < a.2.2.1 + a.2.2.2)
  let xs := rngs.map rng
  let apart := (List.range nr).all (fun i => (List.range i).all (fun j => !meets (xs.getD i (0, 0, 0, 0)) (xs.getD j (0, 0, 0, 0))))
  if addr % 128 != 0 || nl == 0 || 1024 < nl || nr == 0 || 65536 < nr ||
      !(linesOf addr n).all (fun a => s.kindOf 0 a == 0 && s.lineOk 0 a) || crcOf n v != byt m 51 48 ||
      lays.any (fun x => byt x 7 6 != 0 || decide (nr < byt x 3 0 + byt x 5 4)) ||
      rngs.any (fun r => fld r 15 12 != 0 || byt r 7 2 != 0) || !xs.all inRegion || !apart then none
  else some { layers := lays.map (fun x => (xs.drop (byt x 3 0)).take (byt x 5 4)), cyclic := bitOf (byt m 46 46) 0 }

/-- The order is replaced, the pins of the old one and the cursors go (R324, R325). -/
def State.takeOrder (s : State) (o : HoldOrder) : State :=
  let s1 := foldS (List.range s.fit.nActive) (fun l s =>
    foldS ((s.port l).pages.filter (fun (e : Nat × PageEnt) => e.2.pin)) (fun e s => s.setPage l e.1 { e.2 with pin := false })
      (s.modPort l (fun p => { p with cursor := none }))) s
  { s1 with hold := some o }

/-- HOLD_PREFETCH_ORDER (R324). -/
def State.manHold (s : State) (m : Nat) : ManOut :=
  match s.orderTable m with
  | none => .bad s
  | some o => .done (s.takeOrder o)

/-! ## Park and resume (R56 to R60) -/

/-- Whether the fields of a park or resume manifest break R57. -/
def parkBad (m : Nat) : Bool :=
  let scope := byt m 32 32
  let cls := byt m 33 33
  !(scope == 1 || scope == 2 || scope == 3) || (scope == 1 && !(2 ≤ cls && cls ≤ 5)) || (scope != 1 && cls != 0) ||
    (scope != 2 && byt m 39 36 != 0)

/-- The collectives a park or resume manifest names, of those a test picks: a park names running ones alone, a resume marked ones. -/
def State.parkColls (s : State) (m : Nat) (p : Coll → Bool) : List Nat :=
  (s.coll.run.filter (fun c => p c && (byt m 32 32 != 2 || c.l.cseq == byt m 39 36))).map (·.l.cseq)

/-- Whether a manifest names a class of work: that class, or all work of the job. -/
def parkNames (m cls : Nat) : Bool := byt m 32 32 == 3 || (byt m 32 32 == 1 && byt m 33 33 == cls)

/-- Park the salvage of a quay that runs, that of stand-ins included, with a mark (R56, R57). -/
def State.parkSalvage (s : State) (l : Nat) : State :=
  if !(s.lquay l).salv.parked && (s.salv.any (·.started) || (s.lquay l).salv.passes.any Pass.background) then (s.salvPark l).modLquay l (fun q => { q with salv := { q.salv with mark := true } }) else s

/-- Park the audits of a quay that run, with a mark (R57). -/
def State.parkDredge (s : State) (l : Nat) : State :=
  if (s.lquay l).salv.passes.any (·.audit) then
    (s.dredgePark l).modLquay l (fun q => { q with dredge := { q.dredge with mark := true } })
  else s

/-- Park the cold flush, where it runs, with a mark: one that still waits for its tallies, or is parked, does not run (R57). -/
def State.parkFlush (s : State) : State :=
  if s.locker.flush.any (fun f => f.phase != .waiting && !f.parked) then s.flushPark.modFlush (fun f => { f with mark := true }) else s

/-- Every matching piece of work that runs parks at its next safe point, which in the model is at once, and is marked (R57). -/
def State.parkWork (s : State) (m : Nat) : State :=
  let s1 := if byt m 32 32 == 2 || parkNames m 2 then foldS (s.parkColls m (fun c => c.phase == .running)) (fun c s => s.collPark c true) s else s
  let s2 := if parkNames m 3 then foldS s1.lquays (fun l s => s.parkSalvage l) s1 else s1
  let s3 := if parkNames m 4 then s2.parkFlush else s2
  if parkNames m 5 then foldS s3.lquays (fun l s => s.parkDredge l) s3 else s3

/-- PARK (R57). -/
def State.manPark (s : State) (m : Nat) : ManOut := if parkBad m then .bad s else .done (s.parkWork m)

/-- The mark of every matching piece is cleared, and the piece resumes; salvage and flush do so once no collective holds their berths
(R57, R60). -/
def State.resumeWork (s : State) (m : Nat) : State :=
  let s1 := if byt m 32 32 == 2 || parkNames m 2 then foldS (s.parkColls m (·.mark)) (fun c s => s.collResume c) s else s
  let s2 := if parkNames m 3 then foldS s1.lquays (fun l s => s.modLquay l (fun q => { q with salv := { q.salv with mark := false } })) s1 else s1
  let s3 := (if parkNames m 4 then s2.modFlush (fun f => { f with mark := false }) else s2).classGo
  if parkNames m 5 then foldS s3.lquays (fun l s =>
    s.modLquay l (fun q => if q.dredge.mark then { q with dredge := { q.dredge with parked := false, mark := false } } else q)) s3 else s3

/-- RESUME (R57). -/
def State.manResume (s : State) (m : Nat) : ManOut := if parkBad m then .bad s else .done (s.resumeWork m)

/-! ## Acting (R53, R54) -/

/-- Requests for pieces of the job image go from the devices a verdict has fenced, in the state it leaves, to the other parent (R170). -/
def State.imgMoved (old s : State) : State :=
  foldS ((s.job.fenced.filter (fun (e : Nat × Nat) => !old.isFenced e.1)).map (·.1)) (fun d s => s.imgFenced d) s

/-- The same of a manifest that has its effect. -/
def State.fencedSince (old : State) : ManOut → ManOut
  | .done s => .done (old.imgMoved s)
  | o => o

/-- What a manifest past the checks of R51 does, by its TYPE (R49). `idx`: its index in the ring. -/
def State.manAct (s : State) (m idx : Nat) (faults : List LaneFault) : ManOut :=
  match manType m with
  | 0x1 => s.manStepStart m
  | 0x2 => s.manStepAbort m
  | 0x3 => State.fencedSince s (s.manVerdict m)
  | 0x4 => s.manJobStart m
  | 0x5 => s.manTeardown m
  | 0x6 => s.manRole m
  | 0x7 => s.manGroup m
  | 0x8 => s.manLaunch m idx
  | 0x9 => s.manOptDesc m
  | 0xA => s.manBucket m faults
  | 0xB => s.manSchedule m
  | 0xC => s.manHold m
  | 0xD => s.manRrc m
  | 0xE => s.manFlush m
  | 0xF => s.manPark m
  | 0x10 => s.manResume m
  | _ => .bad s

/-- How an entry came out: done, waiting in its ring, not read, which stops the scan, or to take effect after the scan, since its EFFECT
is the current tide (R43). -/
inductive EntryOut where
  | done (s : State)
  | wait (s : State)
  | stop (s : State)
  | later
  deriving DecidableEq, Repr

/-- A manifest that takes effect goes to the quays on the control class (R22, R54). -/
def State.manSent (s : State) (idx m : Nat) : State := s.ringCast 0 4 (.manifest (manType m) idx)

/-- The outcome of a manifest that takes effect: `late` where its EFFECT lies below the current tide (LATE_EVENT), which counts a manifest
that a rule of its type then rejects too: DESIGN CHOICE, unsafe (log 97). -/
def State.manOut (old : State) (verdict : Bool) (idx m : Nat) (late : Bool) : ManOut → EntryOut
  | .done s => .done ((if late then s.countH 0x10 else s).manSent idx m)
  | .wait _ => .wait old
  | .reject s => .done (if late then (s.manReject verdict).countH 0x10 else s.manReject verdict)
  | .bad s => .done (if late then (s.manBad verdict idx m).countH 0x10 else s.manBad verdict idx m)

/-- An entry goes into the held-manifest table, which logical quay 0 fills on every quay over the control class (R53, R54, log 83). -/
def State.manHeld (s : State) (h : Held) : State :=
  State.ringCast { s with man := { s.man with held := s.man.held ++ [h] } } 0 4 (.heldManifest h.idx)

/-- An entry that passed every check (R53): held for its EFFECT, not read while the table is full, acting now, or, with the current tide as
EFFECT, after the scan (R43). A verdict and a launch with an EFFECT are rejected by their own rules; a confirm acts at its scan, and a flush request
stays in the ring while a flush runs (R408). -/
def State.manEntry (s : State) (verdict : Bool) (idx m : Nat) (faults : List LaneFault) : EntryOut :=
  let e := manEffect m
  let own := manType m == 3 || manType m == 8 || (manType m == 0xE && byt m 32 32 == 2)
  let full := decide (1024 ≤ s.man.held.length)
  if manType m == 0xE && byt m 32 32 == 1 && s.locker.flush.isSome then .wait s
  else if !own && s.tide.now < e then
    (if full then .stop s else .done (s.manHeld { ring := verdict, idx := idx, effect := e, entry := BitVec.ofNat 1024 m }))
  else if !own && e != 0 && s.tide.now == e then .later
  else if manType m == 8 && full && s.tide.now < byt m 47 40 then .stop s
  else s.manOut verdict idx m (manType m != 3 && manType m != 8 && decide (e ≠ 0) && decide (e < s.tide.now)) (s.manAct m idx faults)

/-! ## The scan (R50) -/

/-- The quay, base and entries of a ring. -/
def State.ringQuay (s : State) (verdict : Bool) : Nat := s.hpar (if verdict then .verdictRingQuay else .hostRingQuay)

def State.ringAddr (s : State) (verdict : Bool) : Nat := s.hpar (if verdict then .verdictRingBase else .hostRingBase)

def State.ringN (s : State) (verdict : Bool) : Nat := 2 ^ s.hpar (if verdict then .verdictRingLog2 else .hostRingLog2)

/-- Whether a ring can be read: its channels are in service. -/
def State.ringUp (s : State) (verdict : Bool) : Bool := !(s.mring verdict).unavail && s.serving (s.ringQuay verdict)

/-- Entries posted and not done, at most the scan window. -/
def State.ringNew (s : State) (verdict : Bool) : Nat :=
  min ((s.readB (s.ringQuay verdict) (s.ringAddr verdict) 4 + 2 ^ 32 - (s.mring verdict).cons) % 2 ^ 32) 1024

/-- The line of an entry of a ring. -/
def State.entryAddr (s : State) (verdict : Bool) (idx : Nat) : Nat := s.ringAddr verdict + 256 + idx % s.ringN verdict * 128

/-- Read one entry: a failure of MCRC or SEQ stops the scan before it, and one that also failed at the scan before, `last`, is rejected
(R51). -/
def State.readEntry (s : State) (verdict : Bool) (last : Option Nat) (idx : Nat) : EntryOut :=
  let l := s.ringQuay verdict
  let a := s.entryAddr verdict idx
  let m := s.readB l a 128
  let c := s.manCheck verdict idx m (s.lineOk l a)
  if c == 1 || c == 2 then
    (if last == some idx then .done (s.manFail verdict idx c) else .stop (s.modRing verdict (fun r => { r with fail := some idx })))
  else if c != 0 then .done (s.manFail verdict idx c) else s.manEntry verdict idx m []

/-- Read the entries of a list of indices, those done apart, at most `budget`; answers how many wait, and which take effect after the scan
(R43, R50 stages 2 and 3). A teardown, a reset of the rings or the loss of their quay in between ends the scan. -/
def State.scanEntries (verdict : Bool) (last : Option Nat) : List Nat → Nat → Nat × List Nat → State → State × Nat × List Nat
  | [], _, w, s => (s, w)
  | i :: rest, budget, w, s =>
    if (s.mring verdict).done.contains i then State.scanEntries verdict last rest budget w s
    else match budget with
      | 0 => (s, w)
      | b + 1 =>
        if !s.ringUp verdict then (s, w) else
        match s.readEntry verdict last i with
        | .done s' => State.scanEntries verdict last rest b w (s'.modRing verdict (fun r => { r with done := r.done ++ [i] }))
        | .wait s' => State.scanEntries verdict last rest b (w.1 + 1, w.2) s'
        | .stop s' => (s', w)
        | .later => State.scanEntries verdict last rest b (w.1, w.2 ++ [i]) s

/-- Move CONS past leading done entries. -/
def Ring.advance : Nat → Ring → Ring
  | 0, r => r
  | n + 1, r => if r.done.contains r.cons then Ring.advance n { r with cons := (r.cons + 1) % 2 ^ 32, done := r.done.filter (· != r.cons) } else r

/-- The consumer line (R46). -/
def Ring.consumer (r : Ring) (now waiting : Nat) : Nat := pack [(32, r.cons), (32, 0), (64, now), (32, r.rej), (32, waiting)]

/-! ## Held manifests (R53) -/

/-- The place of an index in the host ring, from the oldest that may be held to the newest (R54). -/
def State.ringPlace (s : State) (idx : Nat) : Nat := (idx + 2 ^ 32 + 2 ^ 31 - s.man.host.cons) % 2 ^ 32

/-- Manifests in (EFFECT, ring) order; verdicts are never held (R39, R54). -/
def State.effectOrder (s : State) (hs : List Held) : List Held :=
  sortBy (fun a b => decide (a.effect < b.effect) || (a.effect == b.effect && decide (s.ringPlace a.idx ≤ s.ringPlace b.idx))) hs

/-- The held manifests but launches that a test picks. -/
def State.heldOf (s : State) (p : Held → Bool) : List Held := s.man.held.filter (fun h => !h.isLaunch && p h)

/-- A held manifest acts: it leaves the table, or stays as late. -/
def State.heldAct (s : State) (h : Held) (late : Bool) : State :=
  if !s.man.held.contains h then s else
  let m := h.entry.toNat
  let s1 := { s with man := { s.man with held := s.man.held.filter (· ≠ h) } }
  match s1.manOut h.ring h.idx m late (s1.manAct m h.idx []) with
  | .done s' | .stop s' => s'
  | .wait _ | .later => { s with man := { s.man with held := mapIf (· == h) (fun x => { x with late := true }) s.man.held } }

/-- Held manifests that reached their EFFECT tide with a condition unmet are examined again at each scan. -/
def State.heldLate (s : State) : State := foldS (s.effectOrder (s.heldOf (·.late))) (fun h s => s.heldAct h true) s

/-- The held manifests whose EFFECT tide has come (R39, R43). -/
def State.heldReady (s : State) : List Held := s.heldOf (fun h => !h.late && decide (h.effect ≤ s.tide.now))

/-- They act. -/
def State.heldDue (s : State) : State := foldS (s.effectOrder s.heldReady) (fun h s => s.heldAct h h.missed) s

/-- A manifest of the host ring whose EFFECT is the tide of the scan that read it takes effect after the scan; one whose condition is not
met stays in the ring (R43, R53), and one whose job the scan has torn down is rejected. Answers whether it waits. -/
def State.laterAct (s : State) (idx m : Nat) : State × Bool :=
  if !s.manJobOk m then ((s.manFail false idx 5).modRing false (fun r => { r with done := r.done ++ [idx] }), false) else
  match s.manOut false idx m false (s.manAct m idx []) with
  | .done s' | .stop s' => (s'.modRing false (fun r => { r with done := r.done ++ [idx] }), false)
  | .wait _ | .later => (s, true)

/-- What follows a scan in its tide: late held manifests, and then in (EFFECT, ring) order the held ones that are due and the read ones
whose EFFECT this tide is (R43, R53). Answers how many of the latter wait. -/
def State.heldScan (s0 : State) (later : List (Nat × Nat)) : State × Nat :=
  let s := s0.heldLate
  let mine := later.map (fun x => ({ ring := false, idx := x.1, effect := s.tide.now, entry := BitVec.ofNat 1024 x.2 } : Held))
  (s.effectOrder (s.heldReady ++ mine)).foldl (fun a h =>
    if mine.contains h then
      let r := a.1.laterAct h.idx h.entry.toNat
      (r.1, a.2 + b2n r.2)
    else (a.1.heldAct h h.missed, a.2)) (s, 0)

/-- Scan a ring: a producer line that does not read ends the scan with a fault signature; else entries are read in order, what follows in
this tide follows the host ring's scan, CONS moves on, and the consumer line is written (R43, R46, R50). LAST_SCAN is the current tide
when the scan runs, not the tide it was scheduled for: DESIGN CHOICE, unsafe (log 16). An entry that this scan does not reach has not
failed at it (R51). -/
def State.scanRing (s0 : State) (verdict : Bool) : State :=
  let last := (s0.mring verdict).fail
  let s := s0.modRing verdict (fun r => { r with fail := none })
  let follow := fun (s : State) (later : List (Nat × Nat)) => if verdict then (s, 0) else s.heldScan later
  if !s.ringUp verdict then (follow s []).1 else
  let l := s.ringQuay verdict
  let base := s.ringAddr verdict
  if !s.lineOk l base then (follow (s.sig s.q0 { cls := 8, unit := 0xB, addr := base }) []).1
  else
    let n := s.ringNew verdict
    let cons := (s.mring verdict).cons
    let (s1, w) := State.scanEntries verdict last ((List.range n).map (fun i => (cons + i) % 2 ^ 32)) (s.hpar .scanBudget) (0, []) s
    let f := follow s1 (w.2.map (fun i => (i, s.readB l (s.entryAddr verdict i) 128)))
    let s2 := f.1.modRing verdict (fun r => Ring.advance n r)
    if s2.ringUp verdict then s2.ownWrite l (base + 128) 128 ((s2.mring verdict).consumer s2.tide.now (w.1 + f.2)) else s2

/-! ## Scan tides -/

/-- A manifest scan tide begins: what is logged once a scan period is logged anew, and the security state is looked at (R416); the first one
after a start-up finds the harbour READY (R394 stage 6). -/
def State.scanBegin (s : State) : State :=
  State.secScan { s with man := { s.man with areaLogged := [], scaleLogged := [] }, boot := { s.boot with phase := if s.boot.phase == 4 then 5 else s.boot.phase } }

/-- HELD_MANIFEST. -/
def State.heldManifest (s : State) : State :=
  match s.takeDue .held with
  | none => s
  | some s1 => if s1.boot.phase == 5 && s1.allEnabled then s1.heldDue else s1

/-- REDUCE_INTO, MULTICAST_STORE and GATHER_PUT at their launch tide: the held launch of that OP starts (R53, R225). -/
def State.launchDue (s : State) (op cseq : Nat) : State :=
  match s.heldLaunch cseq with
  | some h =>
    if byt h.entry.toNat 34 34 != op then s else
    (match s.takeDue (.launch cseq) with
    | some s1 => s1.launch h
    | none => s)
  | none => (s.takeDue (.launch cseq)).getD s

/-! ## A manifest given as a command (log 41) -/

/-- A manifest whose condition is not met stays at its place in its ring (R53). -/
def State.manAsked (s : State) (m : Nat) : State := { s with man := { s.man with asked := s.man.asked ++ [BitVec.ofNat 1024 m] } }

/-- One manifest read by itself, as the scan of its ring reads it at index SEQ: `row` says whether it is the manifest of the command.
One that fails MCRC is not yet written, and nothing happens; nor does anything while the ring cannot be read (R45). One whose condition is
not met, or that is not read yet, stays in the ring, and each later scan looks at it again: DESIGN CHOICE, unsafe (log 41). -/
def State.manDirect (s : State) (m : Nat) (row : Bool) (faults : List LaneFault) : State :=
  let verdict := manType m == 3
  let c := s.manCheck verdict (manSeq m) m true
  if s.boot.phase != 5 || !s.allEnabled || !s.eventsRun || s.pwr.state != .run || c == 1 || !s.ringUp verdict then s
  else if c == 3 then s.manFail verdict (manSeq m) 3
  else if !row then s.manFail verdict (manSeq m) 4
  else if c != 0 then s.manFail verdict (manSeq m) c
  else match s.manEntry verdict (manSeq m) m faults with
    | .done s' => s'
    | .wait s' | .stop s' => s'.manAsked m
    | .later => match s.manOut verdict (manSeq m) m false (s.manAct m (manSeq m) faults) with
      | .done s' => s'
      | .wait s' | .stop s' => s'.manAsked m
      | .later => s

/-- The manifests of a ring that commands gave and that stay in it are looked at again, in their order. -/
def State.askedScan (s : State) (verdict : Bool) : State :=
  let mine := s.man.asked.filter (fun e => (manType e.toNat == 3) == verdict)
  foldS mine (fun e s => s.manDirect e.toNat true []) { s with man := { s.man with asked := s.man.asked.filter (fun e => !mine.contains e) } }

/-! ## The scan tide -/

/-- Whether a ring shows a manifest not yet read. -/
def State.ringShows (s : State) : Bool := [true, false].any (fun v => s.ringUp v && s.lineOk (s.ringQuay v) (s.ringAddr v) && s.ringNew v != 0)

/-- The scans of a READY harbour: verdict ring, then host ring and what follows it (R43, R50). -/
def State.scanRings (s : State) : State :=
  if s.boot.phase == 5 && s.allEnabled then (((s.scanRing true).askedScan true).scanRing false).askedScan false else s

/-- MANIFEST_SCAN: what a manifest scan tide does. The security state, a power request, and the risk grade are looked at first; an Idle
harbour that finds a manifest returns to Run and acts on it at the next scan (R178, R416, R422, R423). A requested warm restart takes
this tide in the scan's place (R398). -/
def State.manifestScan (s0 : State) : State :=
  match s0.takeDue .scan with
  | none => s0
  | some s =>
    let s1 := s.scanBegin
    if s1.boot.warmReq then s1.warmBegin else
    let s2 := s1.pwrTake
    if s2.pwr.state != s1.pwr.state then s2 else
    let s3 := s2.gradeScan
    if s3.pwr.state == .idle then (if s3.ringShows then s3.wake else s3.evScan)
    else s3.evScan.scanRings

end Sys2Proof.Machine
end

