-- ==== Sys2Proof/Machine/Receive.lean ====
section
/-! DEFINITION. Receiving on the peer port: what a frame of each virtual channel, and each message without a layout, does once the
checks of R451 have passed, for every packet kind of R448; and the delivery of what was held for a job or kept by the crossbar. -/

namespace Sys2Proof.Machine

/-! ## Frames, by virtual channel (R448) -/

/-- The kind of a packet: FKIND, TYPE, PKIND, RKIND or the locker's KIND, by its channel. -/
def pktKind (f : Frame) : Nat :=
  if f.vc == 3 || f.vc == 4 then (CHdr.dec f.pkt).kind
  else if f.vc == 5 || f.vc == 6 then (RHdr.dec f.pkt).kind
  else if f.vc == 7 then byt f.pkt 0 0
  else f.pkt % 16

/-- The kinds a channel carries to a harbour. -/
def vcKinds (vc : Nat) : List Nat :=
  [[1, 2, 3, 4], [1, 2, 3], [8], [1, 3, 4], [2, 5, 6], [1, 2, 3], [9, 0xA, 0xB], [9, 0xA]].getD vc []

/-- The source device field of a packet, where it has one that names the sending device: a refresh lighter names the source of its
tree, which a relaying member is not (R283), and an answer of remote memory its requester, so its own device is DST_DEV (R249). -/
def pktSrc (f : Frame) : Option Nat :=
  match f.vc with
  | 0 => some (fld f.pkt 83 64)
  | 1 => if f.pkt % 16 == 3 then none else some (LHdr.dec f.pkt).src
  | 2 => some (LAck.dec f.pkt).holder
  | 5 => some (RHdr.dec f.pkt).src
  | 6 => some (RHdr.dec f.pkt).dst
  | _ => none

/-- A fence-class packet (R116, R144, R145, R149, R166); one of a job this device has not started waits for it (R176). -/
def State.fenceIn (s : State) (l : Nat) (f : Frame) : State :=
  if f.len != 64 || !crcOk 64 (f.pkt % 2 ^ 512) then s.pktDrop l
  else s.jobPkt l (fld f.pkt 31 16) f.src f (fun s => match pktKind f with
    | 1 => s.noticeIn f
    | 2 => s.taintIn f.pkt
    | 3 => s.abortIn f.pkt
    | 4 => s.displaceIn f
    | _ => s.pktDrop l)

/-- Whether the body of a mooring-vote lighter is whole: its length, its VPOS, and a record that carries its check value (R118,
R130, R171). `x`: the sender's position. -/
def voteBodyOk (f : Frame) (h : LHdr) (x n : Nat) : Bool :=
  let b := f.pkt >>> 320
  let vk := b % 16
  let vp := fld b 13 8
  let blen := if vk == 4 then 32 else if vk == 3 then 16 else 144
  h.bodyLen == blen && f.len == 40 + blen && decide (vp < n) && (!(vk == 1 || vk == 4) || vp == x) &&
    (!(vk == 1 || vk == 2) || crcOk 128 (fld b 1151 128)) && decide (1 ≤ vk) && decide (vk ≤ 4)

/-- A mooring-vote lighter: a vote, a relay or a join (R118, R119, R171), on logical quay 0, by the stream rules of R82 to R84;
before a relieved quay's stream resets are answered it waits as other lighters do (R93). One from a source that is no member of the convoy,
or on another quay, is answered NOT_MEMBER: DESIGN CHOICE, safe (log 112). -/
def State.voteFrame (s : State) (l : Nat) (f : Frame) : State :=
  let h := LHdr.dec f.pkt
  if !crcOk 40 (f.pkt % 2 ^ 320) then s.ackLighter l f h 4
  else s.jobPkt l h.job f.src f (fun s => if s.resetPending l then s.holdForJob l h.job f else
    let c := s.convoy h.convoy
    let b := f.pkt >>> 320
    match (List.range c.n).find? (fun x => c.dev x == f.src) with
    | none => s.streamChecks l f h false id
    | some x => s.streamChecks l f h (l == 0 && s.isMember c && h.dpos == c.pos) (fun s =>
        if !voteBodyOk f h x c.n then s.ackLighter l f h 4
        else
          let s1 := (s.markIn l f.src (BitVec.ofNat 32 h.lseq)).ackLighter l f h 0
          if b % 16 == 4 then s1.joinIn h.convoy x f.src (fld b 127 64) (fld b 159 128)
          else s1.voteIn h.convoy x (b % 16) (fld b 13 8) (fld b 63 16) (BitVec.ofNat 1024 (fld b 1151 128))))

/-- A refresh lighter: data, END or a resync request (R283, R284). -/
def State.refreshFrame (s : State) (l : Nat) (f : Frame) : State :=
  let h := RfHdr.dec f.pkt
  if !refrOk f h.rkind then s.pktDrop l
  else if s.isFenced f.src then s.fenceNotice l f.src
  else s.jobPkt l h.job h.src f (fun s => match h.rkind with
    | 1 => s.refrIn l f
    | 2 => s.refrIn l f
    | 3 => s.refrAsked l f
    | _ => s.pktDrop l)

/-- A lighter acknowledgement or ANCHOR_DONE at the sender of the copy (R84). -/
def State.ackFrame (s : State) (l : Nat) (f : Frame) : State :=
  let a := LAck.dec f.pkt
  if f.len != 32 || !crcOk 32 (f.pkt % 2 ^ 256) then s.pktDrop l
  else s.jobPkt l a.job f.src f (fun s => s.lighterAck l a)

/-- A collective packet: HCRC first, then every kind waits for its job (R176, R229). -/
def State.collFrame (s : State) (l : Nat) (f : Frame) : State :=
  if !crcOk 32 (f.pkt % 2 ^ 256) then s.pktDrop l else s.jobPkt l (CHdr.dec f.pkt).job f.src f (fun s => s.collIn l f)

/-- A remote reply or answer: taken whatever its epoch (R144, R251). -/
def State.answerFrame (s : State) (l : Nat) (f : Frame) : State :=
  let h := RHdr.dec f.pkt
  let go := fun (s : State) => s.rmtReply l (h.kind - 8) f
  if h.job == 0 then (if s.isFenced f.src then s.fenceNotice l f.src else if s.quiet then s.pktDrop l else go s)
  else s.jobPkt l h.job f.src f go

/-- A locker's answer (R400). -/
def State.lockerFrame (s : State) (l : Nat) (f : Frame) : State := s.lockAnswer l f (byt f.pkt 0 0 == 9)

/-- What a frame does, past the checks of R451. -/
def State.frameAct (s : State) (l : Nat) (f : Frame) : State :=
  match f.vc with
  | 0 => s.fenceIn l f
  | 1 => match pktKind f with
    | 1 => s.lighterIn l f
    | 2 => s.voteFrame l f
    | _ => s.refreshFrame l f
  | 2 => s.ackFrame l f
  | 3 => s.collFrame l f
  | 4 => s.collFrame l f
  | 5 => s.rmtRequest l f (pktKind f) (List.range (RHdr.dec f.pkt).nitem)
  | 6 => s.answerFrame l f
  | _ => s.lockerFrame l f

/-! ## Messages without a layout (log 9) -/

/-- The epoch of a request without a layout, which is refused or held for it; none for an answer (R144). -/
def Tx.askEpoch : Tx → Option Nat
  | .anchorReq _ a => some a.hd.epoch
  | .freeze _ m | .pass _ m => some m.hd.epoch
  | .imgReq _ m => some m.epoch
  | _ => none

/-- Whether a freeze of a salvaging standby waits: while a step is aborting, or one is unmoored whose vote for the standby's position is not
held here and which therefore aborts, since salvage reads pieces that no abort will change (R151, log 89). -/
def State.freezeWaits (s : State) (m : SalvMsg) : Bool :=
  s.job.placed.contains m.hd.src && s.steps.recs.any (fun r =>
    r.state == .aborting || r.relayDue.any (fun e => (r.votes.find e).isNone && (s.convoy e.1).dev e.2 == m.hd.src))

/-- Whether a message waits here: a request that carries a newer epoch until that is reached (R144, log 42), a freeze that waits for
an abort, and a request to restore a stripe until its steps abort here (R127, log 71). -/
def State.msgWaits (s : State) (t : Tx) : Bool :=
  t.askEpoch.any (fun e => decide (s.job.epoch < e)) || (match t with
    | .freeze _ m => s.freezeWaits m
    | .anchorReq _ a => a.stripe != 0xFFFFFFFF && a.restore.any s.liveStep
    | _ => false)

/-- A request past its job gate: one that carries an older epoch than the device's is dropped, since these messages have no stale-epoch
status, and one that must wait is held (R144, log 42). -/
def State.askIn (s : State) (l job src : Nat) (t : Tx) (k : State → State) : State :=
  s.jobMsg l job src t (fun s =>
    if t.askEpoch.any (fun e => decide (e < s.job.epoch)) then s.pktDrop l
    else if s.msgWaits t then s.holdMsg l job t
    else k s)

/-- What a message does at position `l`. -/
def State.msgAct (s : State) (l : Nat) (t : Tx) : State :=
  match t with
  | .frame f => s.frameAct l f
  | .anchorReq _ a =>
    s.askIn l a.hd.job a.hd.src t (fun s => if a.stripe == 0xFFFFFFFF then s.resetIn l a
      else if a.restore.isEmpty then s.answerAnchor l a else s.restoreConvoy l a.hd.convoy a.restore (some a.stripe))
  | .anchorAns _ a => s.askIn l a.hd.job a.hd.src t (fun s => s.anchorAnswerIn l a)
  | .resetAns _ a => s.askIn l a.hd.job a.hd.src t (fun s => s.resetAnswerIn l a)
  | .freeze _ m => s.askIn l m.hd.job m.hd.src t (fun s => s.salvFreeze l m)
  | .frozenA _ m => s.askIn l m.hd.job m.hd.src t (fun s => s.frozenIn l m)
  | .pass _ m => s.askIn l m.hd.job m.hd.src t (fun s => if m.bad then s.auditFound l m else s.helperPass l m)
  | .chain _ m => s.askIn l m.hd.job m.hd.src t (fun s => if m.chain.isEmpty then s.chainIn l m else s.chainHop l m)
  | .lines _ m => s.askIn l m.hd.job m.hd.src t (fun s => s.helperIn l m (fun s p => s.auditJudge l p))
  | .imgReq _ m => s.askIn 0 m.job m.src t (fun s => s.imgServe m.src m.piece)
  | .imgPiece _ m => s.askIn 0 m.job m.src t (fun s => s.imgIn m)

/-! ## Arrival -/

/-- A frame arrives on channel `vc` of position `l`; `row` says whether it is the packet of the command. An Idle harbour returns to
Run for it (R423). -/
def State.frameIn (s : State) (l vc : Nat) (f : Frame) (row : Bool) (k : State → State) : Host.Outcome State Fault Refusal :=
  s.recv l vc f (row && (vcKinds vc).contains (pktKind f)) (pktSrc f) (fun s => k s.wake)

/-- A message arrives at position `l`. -/
def State.msgIn (s : State) (l : Nat) (t : Tx) : Host.Outcome State Fault Refusal := s.recvMsg l t (fun s => s.wake.msgAct l t)

/-- What the crossbar kept for a position goes to the relief quay in order of arrival once it is in service (R435); with no quay left
it is lost. -/
def State.xbarGo (s : State) (l : Nat) : State :=
  let p := (s.port l).peer
  if (p.xbar.isEmpty && p.xmsg.isEmpty) || s.reliefs.any (fun r => r.lq == l) then s else
  let s1 := s.modPort l (fun pt => { pt with peer := { pt.peer with xbar := [], xmsg := [] } })
  if !s1.rxOpen l then s1 else
  let s2 := foldS p.xbar (fun f s =>
    (if s.frameOk l f.vc f ((vcKinds f.vc).contains (pktKind f)) (pktSrc f) then (s.rxTake l f).frameAct l f else (s.rxTake l f).pktDrop l).rxReturn l f) s1
  foldS p.xmsg (fun t s => s.msgAct l t) s2

/-- Traffic held for a job goes on once the job has started, or is dropped once its tag is tombstoned (R174, R176); a request held for its
epoch or for an abort to end goes on after it (R144, R151), and a vote lighter once the stream resets are answered (R93). A packet held once for each of
its items goes on once. -/
def State.heldJobGo (s : State) : State :=
  let due := fun (tag : Nat) => s.jobGate tag != .other
  let dueF := fun (i : Intake) => due i.job && !(i.frame.vc == 1 && pktKind i.frame == 2 && s.jobGate i.job == .active && s.resetPending i.pos)
  let dueM := fun (m : HeldMsg) => due m.job && !(s.jobGate m.job == .active && s.msgWaits m.msg)
  let fs := s.job.heldJob.filter dueF
  let ms := s.job.heldMsg.filter dueM
  if fs.isEmpty && ms.isEmpty then s else
  let s1 := { s with job := { s.job with heldJob := s.job.heldJob.filter (fun i => !dueF i), heldMsg := s.job.heldMsg.filter (fun m => !dueM m) } }
  let s2 := foldS fs (fun i s => s.rxGive i.pos i.frame) s1
  let s3 := foldS (fs.map (fun i => (i.pos, i.frame))).eraseDups (fun e s => s.frameAct e.1 e.2) s2
  foldS ms (fun m s => (s.msgGive m.pos m.msg).msgAct m.pos m.msg) s3

end Sys2Proof.Machine
end

