-- ==== Sys2Proof/Machine/Settle.lean ====
section
/-! DEFINITION. The compute port's acceptance of requests (R438 to R441), and what goes on by itself after a command: operations,
lighters, collectives, refresh, salvage, flush and job start move on as far as they can without an answer from outside. -/

namespace Sys2Proof.Machine

/-! ## The compute port -/

/-- Whether a position's channels have left service without relief (R166). -/
def State.cpLost (s : State) (l : Nat) : Bool := decide (4 ≤ s.boot.phase) && (s.phys l).isNone && !s.reliefs.any (fun r => r.lq == l)

/-- Whether cp_req_ready is low for a request with its code of R438: behind one that waits on its lane, in Hold, under relief, with the quay not enabled, with 4,096 local
requests of the lane unanswered, or for a remote one while none of the quay's 16,384 outstanding-operation entries is free (R32, R252,
R435, R439, R441, R476). -/
def State.cpStalls (s : State) (op : Nat) (r : CpReq) : Bool :=
  let mine := fun (o : Op) => match o.src with
    | .cp lane _ => lane == r.lane
    | _ => false
  s.cpWait.any (fun e => e.2.pos == r.pos && e.2.lane == r.lane) || s.pwr.state == .hold || s.reliefs.any (fun x => x.lq == r.pos) || !s.serving r.pos ||
    decide (4096 ≤ ((s.lquay r.pos).ops.filter mine).length) || (decide (3 ≤ op) && decide (16384 ≤ (s.lquay r.pos).rmt.oot.length))

/-- Whether a carried check value disagrees with the data, unmasked bytes taken as zero (R329). -/
def cpCrcBad (r : CpReq) : Bool := r.crcv && r.crc != lineCrc (r.data &&& expandMask r.mask)

/-- A request at the compute port, with its code of R438: 1 read, 2 write, 3 remote read, 4 remote write, 5 remote atomic. It waits at
the port while cp_req_ready is low, and returns an Idle harbour to Run (R441). -/
def State.cpTake (s : State) (op : Nat) (r : CpReq) : State :=
  let l := r.pos
  let src : Src := .cp r.lane r.tag
  if s.cpLost l && s.pwr.state != .hold then s.cpAnswer l r.lane r.tag 1 0 false false
  else if s.cpStalls op r then { s with cpWait := s.cpWait ++ [(op, r)] }
  else
    let s0 := s.wake
    let at_ : CntAttr := { priv := some r.priv, master := some r.master, addr := some r.addr, kind := some (s0.kindOf l r.addr) }
    let bad := fun (s : State) => (s.sigL l { cls := 1, unit := 9, addr := r.addr, expected := r.crc,
                                              observed := lineCrc (r.data &&& expandMask r.mask) }).cpAnswer l r.lane r.tag 7 0 false false
    match op with
    | 1 => (s0.countL l 0x00 1 at_).readReq l src r.fmt r.addr r.priv r.master
    | 2 =>
      let s1 := s0.countL l 0x01 1 at_
      if cpCrcBad r then bad s1 else s1.writeReq l src (.write r.mask r.data r.poison) r.addr r.priv r.master
    | 3 => s0.rmtIssue l r 1
    | 4 => if cpCrcBad r then bad s0 else s0.rmtIssue l r 2
    | _ => s0.rmtIssue l r 3

/-- Requests that wait at the port are presented again, in order. -/
def State.cpRetry (s : State) : State :=
  if s.cpWait.isEmpty || s.pwr.state == .hold then s else
  foldS s.cpWait (fun e s => s.cpTake e.1 e.2) { s with cpWait := [] }

/-! ## The channel port's answers (R442, R443, R445) -/

/-- Read data: the line's content and marks as the controller gives them; the operation that waits goes on, and writes sent after the read
stay on top of what it brought. -/
def State.mcRead (s : State) (l tag : Nat) (data : Line) (status : Nat) : State :=
  match s.mcFind l tag false with
  | none => s
  | some c =>
    let k := memKey l c.addr
    let s1 : State := match status with
      | 0 =>
        let p := s.poke l c.addr 128 data.toNat
        { p with poisoned := setMark false k p.poisoned, badLines := setMark false k p.badLines }
      | 1 => { s with poisoned := setMark true k s.poisoned }
      | _ => { s with badLines := setMark true k s.badLines }
    let later := (((s.lquay l).mc.dropWhile (fun x => x.tag != c.tag)).drop 1).filter (fun x => x.addr == c.addr)
    let s2 := s1.mcDone l c
    let s3 := match c.use with
      | .op id => s2.opReadData l id (status != 0)
      | _ => s2
    foldS later (fun x s => match x.wr with
      | some d => s.applyWrite l c.addr d
      | none => s) s3

/-- A write the channel port has accepted: a replayed line of an abort and a rebuilt line of a salvage tell their own work of it (R124,
R158). -/
def State.ackOk (s : State) (l : Nat) (c : McCmd) : State :=
  match c.use with
  | .replay slot => (s.writeOk l c).replayAcked l slot
  | .rebuilt cv no line => (s.writeOk l c).rebuiltDone l cv no line
  | _ => s.writeOk l c

/-- A write acknowledgement: OK, or ERROR for every other status. -/
def State.mcAck (s : State) (l tag status : Nat) : State :=
  match s.mcFind l tag true with
  | none => s
  | some c => match c.wr with
    | some d =>
      if status != 0 then s.writeErr l c d else s.ackOk l c
    | none => s

/-- MC_TIMEOUT: a command unanswered for MC_TIMEOUT_T is a fatal internal error (R445). -/
def State.mcTimeout (s : State) (l : Nat) : State :=
  if (s.lquay l).mc.any (fun c => c.tag.isSome && s.passed c.since (s.lpar l .mcTimeoutT)) then s.fatalL l else s

/-! ## What goes on by itself -/

/-- An operation of a source other than the compute port has ended. -/
def State.finOne (s : State) (l : Nat) (f : Fin) : State :=
  match f.src with
  | .opt tag step => s.optFin l tag step
  | .coll cseq _ own => s.collFin cseq own f
  | .remote b n t => s.rmtFin l b n t f
  | .comb => s.combFin l f.addr f.status
  | .debug p => s.tapFin l p f
  | _ => s

/-- Hand the ended operations of a quay to their sources. -/
def State.finGo (s : State) (l : Nat) : State :=
  let fs := (s.lquay l).fin
  if fs.isEmpty then s else foldS fs (fun f s => s.finOne l f) (s.modLquay l (fun q => { q with fin := [] }))

/-- SEAL_LATE: once for an episode in which the parity lag exceeds its limit (R88). -/
def State.sealLate (s : State) (l : Nat) : State :=
  if !s.sealIsLate l || (s.lquay l).conv.sealLate then s
  else (s.modLquay l (fun q => { q with conv := { q.conv with sealLate := true } })).evL l .sealLate

/-- The episode ends once the lag falls to the limit. -/
def State.sealOver (s : State) (l : Nat) : State :=
  if (s.lquay l).conv.sealLate && !s.sealIsLate l then s.modLquay l (fun q => { q with conv := { q.conv with sealLate := false } }) else s

/-- The stripes of cold parity lines that failed their check on a load are anchored again (R89, R322). -/
def State.badLoadGo (s : State) (l : Nat) : State :=
  foldS (s.lquay l).badLoad (fun a s => match (s.coldConvoys l).find? (fun c => decide (c.par.getD l 0 * 4096 ≤ a) && decide (a < c.par.getD l 0 * 4096 + 4096 * c.parUnits l)) with
    | none => s
    | some c =>
      let st := (c.parStripe c.pos ((a - c.par.getD l 0 * 4096) / 4096)).1
      if !s.isMember c || s.underRebuild l c st then s else s.startAnchor l c.idx st (c.role st - c.k) .lost)
    (s.modLquay l (fun q => { q with badLoad := [] }))

/-- Move the work of one quay on. -/
def State.quayGo (s0 : State) (l : Nat) : State :=
  let s := s0.sealOver l
  let s1 := ((((((s.opsGo l).demandGo l).answerWaiting l).answerFrozen l).passWaiting l).resumeStreams l).assignAll l
  let s2 := ((((((((s1.ovfGo l).reapSealed l)).lateAnswers l).retryHeld l).pagesDone l).pageWaitGo l).badLoadGo l).finGo l
  ((((((s2.rmtGo l).opsOpen l [1, 2, 3, 4]).optAdmit l s2.opt.shares.length).optGo l 4096).auditGo l).rxRelease l).peerPump l

/-- Refresh of the steps that have just moored (R122 stage 5). -/
def State.mooredGo (s : State) : State :=
  let done := (s.steps.tallies.filter (fun t => t.1 == 2)).map (·.2)
  if done.isEmpty then s else
  foldS done (fun no s => s.refrStart no) { s with steps := { s.steps with tallies := s.steps.tallies.filter (fun t => t.1 != 2) } }

/-- Move the work of the harbour on. -/
def State.harbourGo (s : State) : State :=
  let s1 := s.collGo.mooredGo.abortGo.refreshGo.flipGo.flushGo.jobGo.heldJobGo
  let s2 := s1.classGo.salvGo.standInGo.xparGo.fatalGo.crwLost.pwrGo.snapGo
  foldS (List.range s2.fit.nActive) (fun l s => s.xbarGo l) s2

/-- One round: the compute ports first, then the peer port's and the optimizer's work of every quay in service, then the harbour's,
collectives first (R30). -/
def State.goRound (s : State) : State := (foldS s.lquays (fun l s => s.quayGo l) s.cpRetry).harbourGo

/-- Whether nothing is under way on a quay. -/
def Quay.still (q : Quay) : Bool :=
  q.ops.isEmpty && q.fin.isEmpty && q.fatal == 0 && q.packs.isEmpty && q.salv.passes.isEmpty && q.rmt.oot.isEmpty &&
  q.rmt.held.isEmpty && q.rmt.comb.isEmpty && q.conv.opened.isEmpty && q.conv.sent.isEmpty && q.conv.anch.isEmpty &&
  q.conv.heldL.isEmpty && q.conv.frozen.isEmpty && q.conv.resets.isEmpty && q.conv.ansWait.isEmpty && q.conv.passWait.isEmpty && q.conv.parts.isEmpty && q.conv.lateAns.isEmpty && q.conv.appends.isEmpty && !q.conv.sealLate &&
  q.dredge.wait.isEmpty && q.salv.spool.isEmpty && q.salv.waitL.isEmpty && q.conv.ovfPut.isEmpty && q.pageWait.isEmpty && q.badLoad.isEmpty &&
  !q.pools.live.any (fun b => b.owner == .lighter || b.owner == .retained || b.owner == .background || b.owner == .dredge || b.owner == .flush || b.owner == .page || b.owner == .ovf || b.owner == .demand)

/-- Whether nothing is under way at a port position. -/
def PortSt.still (p : PortSt) : Bool :=
  p.peer.txq.isEmpty && p.peer.xbar.isEmpty && p.peer.xmsg.isEmpty && (List.range 8).all (fun v => p.peer.kept.get 0 v == 0) &&
  p.pages.all (fun (e : Nat × PageEnt) => e.2.st != pgLoading && e.2.st != pgWriting)

/-- Whether nothing of the harbour can go on by itself: every list of work in hand is empty. -/
def State.still (s : State) : Bool :=
  s.quays.all (fun (e : Nat × Quay) => e.2.still) && s.ports.all (fun (e : Nat × PortSt) => e.2.still) && s.job.phase != .starting &&
  s.reliefs.isEmpty && s.cpWait.isEmpty && s.coll.run.isEmpty && s.coll.early.isEmpty && s.opt.shares.isEmpty &&
  s.refr.running.isEmpty && s.refr.resync.isEmpty && s.refr.sched.isNone && s.locker.flush.isNone && s.locker.restore.isNone &&
  s.salv.isEmpty && s.job.displaced.isEmpty && s.job.heldJob.isEmpty && s.job.heldMsg.isEmpty && s.steps.tallies.isEmpty &&
  s.steps.recs.all (fun r => r.state != .aborting) && (decide (s.grade.eff < 5) || s.job.phase != .ready) && !s.crwBusy && !s.pwr.going && !s.snap.writing

/-- What goes on by itself after a command: three rounds, which is as far as work gets before it needs an answer from outside; work
left over goes on after the next command. In Idle, where the datapath has no clock, quays are still watched (R421) and an image on its way out ends (R382), and in Hold nothing
moves (R425). -/
def State.settle (s : State) : State :=
  if s.still || s.pwr.off then s
  else match s.pwr.state with
    | .run => s.goRound.goRound.goRound
    | .idle => s.fatalGo.snapGo
    | .hold => s

/-- The flip masks of the ECC look at what a command wrote into the staging SRAM of each quay (R338). -/
def State.flipMasks (s old : State) : State :=
  foldS (s.physAll.filter (fun p => (s.quay p).flip2.getLsbD 31 || !(s.quay p).flips.isEmpty)) (fun p s => s.modQuay p (fun q => q.flipWrites (old.quay p))) s

/-! ## Commands -/

/-- What no command changes: the queue of waiting commands, and what the integration fixed when it built the harbour (R16, R17). -/
def State.keep (t s : State) : State := { t with pending := s.pending, fit := s.fit }

/-- The state after an effect `k` on a harbour with power: the effect, what follows by itself, and the flip masks. -/
def State.after (s : State) (k : State → State) : State := ((k s).settle.flipMasks s).keep s

/-- A command of a harbour with power: its effect, what follows by itself, and the flip masks. Without supply nothing happens
(R426). -/
def State.command (s : State) (k : State → State) : Host.Outcome State Fault Refusal :=
  if s.pwr.off then .next s else .next (s.after k)

/-- A compute-port request: its position and lane must exist (R434, R438). -/
def State.cpCommand (s : State) (op : Nat) (r : CpReq) : Host.Outcome State Fault Refusal :=
  if s.fit.nActive ≤ r.pos || 4 ≤ r.lane then .fault .noSuchPort else s.command (fun s => s.cpTake op r)

/-- A scheduled event that has fired, and that only the head of the due ones may run (R43). -/
def State.dueCommand (s : State) (e : DueEv) (k : State → State) : Host.Outcome State Fault Refusal :=
  s.command (fun s => match s.takeDue e with
    | some s' => k s'
    | none => s)

/-- A command at a port position, which must exist (R434). -/
def State.atPort (s : State) (l : Nat) (k : State → State) : Host.Outcome State Fault Refusal :=
  if s.fit.nActive ≤ l then .fault .noSuchPort else s.command k

/-- A command that moves no work on: one that reads, or acts on pins and test logic only. -/
def State.aside (s : State) (k : State → State) : Host.Outcome State Fault Refusal := 
  if s.pwr.off then .next s else .next ((k s).keep s)

/-- An arrival on the peer port, and what follows. -/
def State.arrival (s : State) (o : Host.Outcome State Fault Refusal) : Host.Outcome State Fault Refusal :=
  match o with
  | .next t => if s.pwr.off then .next s else .next (s.after (fun _ => t))
  | .fault e => .fault e
  | .refused e => .refused e

end Sys2Proof.Machine
end

