-- ==== Sys2Proof/Machine/CmdPort.lean ====
section
/-! DEFINITION. Meanings of the compute-port and channel-port commands, of convoy coding and of the mooring messages (01, 03, 04,
15). -/

namespace Sys2Proof.Machine

/-! ## Compute port (R438 to R441) -/

/-- CP_READ. -/
def execCpRead (r : CpReq) (s : State) : Host.Outcome State Fault Refusal := s.cpCommand 1 r

/-- CP_WRITE. -/
def execCpWrite (r : CpReq) (s : State) : Host.Outcome State Fault Refusal := s.cpCommand 2 r

/-- CP_REMOTE_READ (R243, R261). -/
def execCpRemoteRead (r : CpReq) (s : State) : Host.Outcome State Fault Refusal := s.cpCommand 3 r

/-- CP_REMOTE_WRITE (R243, R259). -/
def execCpRemoteWrite (r : CpReq) (s : State) : Host.Outcome State Fault Refusal := s.cpCommand 4 r

/-- CP_REMOTE_ATOMIC (R243, R264). -/
def execCpRemoteAtomic (r : CpReq) (s : State) : Host.Outcome State Fault Refusal := s.cpCommand 5 r

/-! ## Channel port (R442 to R445) -/

/-- MC_READ_DATA. -/
def execMcReadData (pos tag : Nat) (data : Line) (status : Nat) (s : State) : Host.Outcome State Fault Refusal :=
  s.atPort pos (fun s => s.mcRead pos tag data status)

/-- MC_WRITE_ACK. -/
def execMcWriteAck (pos tag status : Nat) (s : State) : Host.Outcome State Fault Refusal := s.atPort pos (fun s => s.mcAck pos tag status)

/-- MC_TIMEOUT. -/
def execMcTimeout (pos : Nat) (s : State) : Host.Outcome State Fault Refusal := s.atPort pos (fun s => s.mcTimeout pos)

/-! ## Lighters (R74 to R95) -/

/-- LIGHTER_HOLD_EXPIRY (R74). -/
def execLighterHoldExpiry (pos : Nat) (s : State) : Host.Outcome State Fault Refusal := s.atPort pos (fun s => s.holdExpire pos)

/-- PARITY_DELTA_LIGHTER (R84, R89): TYPE 0x1. -/
def execParityDeltaLighter (pos : Nat) (f : Frame) (s : State) : Host.Outcome State Fault Refusal :=
  s.arrival (s.frameIn pos 1 f (pktKind f == 1) (fun s => s.lighterIn pos f))

/-- LIGHTER_ACK (R84): TYPE 0x8 with a STATUS other than ANCHOR_DONE. -/
def execLighterAck (pos : Nat) (f : Frame) (s : State) : Host.Outcome State Fault Refusal :=
  s.arrival (s.frameIn pos 2 f ((LAck.dec f.pkt).status != 6) (fun s => s.ackFrame pos f))

/-- ANCHOR_DONE (R84): TYPE 0x8 with STATUS 6. -/
def execAnchorDone (pos : Nat) (f : Frame) (s : State) : Host.Outcome State Fault Refusal :=
  s.arrival (s.frameIn pos 2 f ((LAck.dec f.pkt).status == 6) (fun s => s.ackFrame pos f))

/-- LIGHTER_ACK_TIMEOUT (R85). -/
def execLighterAckTimeout (pos : Nat) (s : State) : Host.Outcome State Fault Refusal := s.atPort pos (fun s => s.ackTimeout pos)

/-- SEAL_LATE (R88). -/
def execSealLate (pos : Nat) (s : State) : Host.Outcome State Fault Refusal := s.atPort pos (fun s => s.sealLate pos)

/-- ANCHOR_REQUEST (R92). -/
def execAnchorRequest (pos : Nat) (a : AnchorReq) (s : State) : Host.Outcome State Fault Refusal :=
  s.arrival (s.msgIn pos (.anchorReq s.ident.device { a with stripe := a.stripe % 0xFFFFFFFF }))

/-- ANCHOR_ANSWER (R91). -/
def execAnchorAnswer (pos : Nat) (a : AnchorAns) (s : State) : Host.Outcome State Fault Refusal :=
  s.arrival (s.msgIn pos (.anchorAns s.ident.device a))

/-- ANCHOR_TIMEOUT (R94). -/
def execAnchorTimeout (pos : Nat) (s : State) : Host.Outcome State Fault Refusal := s.atPort pos (fun s => s.anchorTimeouts pos)

/-- STREAM_RESET (R93, R127): an anchor request with every stripe field all ones. -/
def execStreamReset (pos : Nat) (a : AnchorReq) (s : State) : Host.Outcome State Fault Refusal :=
  s.arrival (s.msgIn pos (.anchorReq s.ident.device { a with stripe := 0xFFFFFFFF }))

/-- STREAM_RESET_ANSWER (R93, R127). -/
def execStreamResetAnswer (pos : Nat) (a : ResetAns) (s : State) : Host.Outcome State Fault Refusal :=
  s.arrival (s.msgIn pos (.resetAns s.ident.device a))

/-! ## Mooring (R112, R118, R119, R171) -/

/-- What logical quay 0 does at a vote slot: vote lighters, then the contributions that can be made. -/
def State.voteSlot (s : State) : State :=
  if s.boot.phase != 5 || !s.allEnabled || s.tide.lost then s else
  let s1 := s.sendVotes
  foldS (s1.coll.run.filter (fun c => c.l.mark != 0)) (fun c s => s.tallyContribute c) s1

/-- MOORING_VOTE_SLOT (R118). -/
def execMooringVoteSlot (s : State) : Host.Outcome State Fault Refusal := s.dueCommand .vote State.voteSlot

/-- The VKIND of a mooring-vote lighter, 0 for another packet. -/
def frameVkind (f : Frame) : Nat := if pktKind f == 2 then f.pkt >>> 320 % 16 else 0

/-- MOORING_VOTE (R118): VKIND 0x1. -/
def execMooringVote (pos : Nat) (f : Frame) (s : State) : Host.Outcome State Fault Refusal :=
  s.arrival (s.frameIn pos 1 f (frameVkind f == 1) (fun s => s.voteFrame pos f))

/-- VOTE_RELAY (R119): VKIND 0x2. -/
def execVoteRelay (pos : Nat) (f : Frame) (s : State) : Host.Outcome State Fault Refusal :=
  s.arrival (s.frameIn pos 1 f (frameVkind f == 2) (fun s => s.voteFrame pos f))

/-- VOTE_RELAY_EMPTY (R119): VKIND 0x3. -/
def execVoteRelayEmpty (pos : Nat) (f : Frame) (s : State) : Host.Outcome State Fault Refusal :=
  s.arrival (s.frameIn pos 1 f (frameVkind f == 3) (fun s => s.voteFrame pos f))

/-- JOIN_MESSAGE (R171): VKIND 0x4. -/
def execJoinMessage (pos : Nat) (f : Frame) (s : State) : Host.Outcome State Fault Refusal :=
  s.arrival (s.frameIn pos 1 f (frameVkind f == 4) (fun s => s.voteFrame pos f))

/-! ## Fence class (R145) -/

/-- FENCE_NOTICE (R144): FKIND 0x1. -/
def execFenceNotice (pos : Nat) (f : Frame) (s : State) : Host.Outcome State Fault Refusal :=
  s.arrival (s.frameIn pos 0 f (pktKind f == 1) (fun s => s.fenceIn pos f))

/-- TAINT (R116, R117): FKIND 0x2. -/
def execTaint (pos : Nat) (f : Frame) (s : State) : Host.Outcome State Fault Refusal :=
  s.arrival (s.frameIn pos 0 f (pktKind f == 2) (fun s => s.fenceIn pos f))

/-- COLLECTIVE_ABORT (R149, R150): FKIND 0x3. -/
def execCollectiveAbort (pos : Nat) (f : Frame) (s : State) : Host.Outcome State Fault Refusal :=
  s.arrival (s.frameIn pos 0 f (pktKind f == 3) (fun s => s.fenceIn pos f))

/-- COLLECTIVE_ABORT_RESEND (R149). -/
def execCollectiveAbortResend (cseq : Nat) (s : State) : Host.Outcome State Fault Refusal := s.command (fun s => s.abortResend cseq)

/-- DISPLACEMENT_NOTICE (R166): FKIND 0x4. -/
def execDisplacementNotice (pos : Nat) (f : Frame) (s : State) : Host.Outcome State Fault Refusal :=
  s.arrival (s.frameIn pos 0 f (pktKind f == 4) (fun s => s.fenceIn pos f))

end Sys2Proof.Machine
end

