-- ==== Sys2Proof/Machine/CmdSystem.lean ====
section
/-! DEFINITION. Meanings of the sideband, power, charter-rewrite, register, event, test-access and credit commands (05, 12, 13, 14,
15, 16). -/

namespace Sys2Proof.Machine

/-! ## Risk grade and sideband inputs (R178, R416, R462 to R466) -/

/-- GRADE_HOLD_EXPIRY (R178). -/
def execGradeHoldExpiry (s : State) : Host.Outcome State Fault Refusal := s.command State.gradeHold

/-- GRADE_SETTLE_EXPIRY (R464). -/
def execGradeSettleExpiry (s : State) : Host.Outcome State Fault Refusal := s.aside State.gradeSettle

/-- PILOT_GRADE_CHANGE (R464). -/
def execPilotGradeChange (grade : Nat) (s : State) : Host.Outcome State Fault Refusal := s.aside (fun s => s.pilotGrade grade)

/-- PRESENCE_CHANGE (R464). -/
def execPresenceChange (level : Bool) (s : State) : Host.Outcome State Fault Refusal := s.aside (fun s => s.presenceChange level)

/-- PRESENCE_MAX_EXPIRY (R464). -/
def execPresenceMaxExpiry (s : State) : Host.Outcome State Fault Refusal := s.command State.presenceMax

/-- SEAL_LOOP_BREAK (R416). -/
def execSealLoopBreak (p : Nat) (s : State) : Host.Outcome State Fault Refusal := s.command (fun s => s.loopBreak p)

/-- SEAL_LOOP_RESTORE (R464). -/
def execSealLoopRestore (s : State) : Host.Outcome State Fault Refusal := s.aside State.loopRestore

/-- FAIL_STOP_IN_ASSERT (R465). -/
def execFailStopInAssert (p : Nat) (s : State) : Host.Outcome State Fault Refusal := s.command (fun s => s.failStop p)

/-- FAIL_STOP_IN_REARM (R465). -/
def execFailStopInRearm (s : State) : Host.Outcome State Fault Refusal := s.command State.failStopRearm

/-- SIDEBAND_GLITCH (R463, R466). -/
def execSidebandGlitch (pin : SbPin) (s : State) : Host.Outcome State Fault Refusal := s.aside (fun s => s.glitch pin)

/-! ## Links and credits (R449, R452, R453) -/

/-- PP_LINK_DOWN (R452). -/
def execPpLinkDown (pos : Nat) (s : State) : Host.Outcome State Fault Refusal := s.atPort pos (fun s => s.linkDown pos)

/-- PP_LINK_UP (R452). -/
def execPpLinkUp (pos : Nat) (s : State) : Host.Outcome State Fault Refusal := s.atPort pos (fun s => s.linkUp pos)

/-- PP_FLIT_CREDIT (R449). -/
def execPpFlitCredit (pos vc : Nat) (s : State) : Host.Outcome State Fault Refusal := s.atPort pos (fun s => s.linkCredit pos vc)

/-- HR_FLIT_CREDIT (R453). -/
def execHrFlitCredit (p : Nat) (east : Bool) (cls : Nat) (s : State) : Host.Outcome State Fault Refusal := s.aside (fun s => s.ringCredit p east cls)

/-! ## Power (R421 to R426) -/

/-- SUPPLY_REMOVED (R426). -/
def execSupplyRemoved (s : State) : Host.Outcome State Fault Refusal := .next (s.supplyRemoved.keep s)

/-- PWR_REQ_RUN (R423): H_PWR_CTL with REQ 0. -/
def execPwrReqRun (acc : Acc) (key : Nat) (s : State) : Host.Outcome State Fault Refusal :=
  s.command (fun s => s.regWrite 0x4C acc (key % 65536 * 65536))

/-- PWR_REQ_IDLE (R422): H_PWR_CTL with REQ 1. -/
def execPwrReqIdle (acc : Acc) (key : Nat) (s : State) : Host.Outcome State Fault Refusal :=
  s.command (fun s => s.regWrite 0x4C acc (key % 65536 * 65536 + 1))

/-- PWR_REQ_HOLD (R422): H_PWR_CTL with REQ 2. -/
def execPwrReqHold (acc : Acc) (key : Nat) (s : State) : Host.Outcome State Fault Refusal :=
  s.command (fun s => s.regWrite 0x4C acc (key % 65536 * 65536 + 2))

/-- PWR_STATE (R422, R423). -/
def execPwrState (s : State) : Host.Outcome State Fault Refusal := s.command State.pwrStep

/-! ## Warm restart and charter rewrite (R397, R398, R430 to R432) -/

/-- H_WARM (R397). -/
def execHWarm (acc : Acc) (data : Word) (s : State) : Host.Outcome State Fault Refusal := s.command (fun s => s.regWrite 0x44 acc data.toNat)

/-- A requested warm restart takes the manifest scan tide in the scan's place (R398); the security state is looked at first, and a
restart that has left Maintenance is no longer requested (R416, R419). One that the scan tide has begun already goes on. -/
def State.warmScan (s0 : State) (ch : CharterPort) (bad : List Nat) : State :=
  if s0.boot.phase == 7 then s0.warmRestart ch bad else
  match s0.takeDue .scan with
  | none => s0
  | some s => if s.secScan.boot.warmReq then s.secScan.warmRestart ch bad else s0

/-- WARM_RESTART (R398). -/
def execWarmRestart (ch : CharterPort) (bad : List Nat) (s : State) : Host.Outcome State Fault Refusal := s.command (fun s => s.warmScan ch bad)

/-- CRW_GO (R430, R431): H_CRW_CTL with GO. -/
def execCrwGo (acc : Acc) (key : Nat) (s : State) : Host.Outcome State Fault Refusal :=
  s.command (fun s => s.regWrite 0x98 acc (key % 65536 * 65536 + 1))

/-- CRW_ABORT (R430): H_CRW_CTL with ABORT. -/
def execCrwAbort (acc : Acc) (key : Nat) (s : State) : Host.Outcome State Fault Refusal :=
  s.command (fun s => s.regWrite 0x98 acc (key % 65536 * 65536 + 2))

/-- FLASH_COMMAND_DONE (R431). -/
def execFlashCommandDone (r : FlashEnd) (s : State) : Host.Outcome State Fault Refusal := s.command (fun s => s.flashDone r)

/-! ## Registers (R456 to R492) -/

/-- Q_CTL_ENABLE (R476). -/
def execQCtlEnable (p : Nat) (acc : Acc) (key : Nat) (s : State) : Host.Outcome State Fault Refusal :=
  s.command (fun s => s.regWrite (qAddr p 0x08) acc (key % 65536 * 65536 + 1))

/-- Q_CTL_DISABLE (R476). -/
def execQCtlDisable (p : Nat) (acc : Acc) (key : Nat) (s : State) : Host.Outcome State Fault Refusal :=
  s.command (fun s => s.regWrite (qAddr p 0x08) acc (key % 65536 * 65536 + 2))

/-- Q_ERRQ_POP (R367). -/
def execQErrqPop (p : Nat) (acc : Acc) (s : State) : Host.Outcome State Fault Refusal := s.aside (fun s => s.regWrite (qAddr p 0x84) acc 1)

/-- ECC_FLIP_ARM (R338): a write of Q_ECC_FLIP2. -/
def execEccFlipArm (p : Nat) (acc : Acc) (data : Word) (s : State) : Host.Outcome State Fault Refusal :=
  s.aside (fun s => s.regWrite (qAddr p 0x68) acc data.toNat)

/-- COUNTER_SNAPSHOT_REQUEST (R381): a write of H_CNT_SNAP with REQ. -/
def execCounterSnapshotRequest (acc : Acc) (user clear : Bool) (s : State) : Host.Outcome State Fault Refusal :=
  s.command (fun s => s.regWrite 0x60 acc (1 + 2 * b2n clear + 4 * b2n user))

/-- COUNTER_SNAPSHOT (R381). -/
def execCounterSnapshot (s : State) : Host.Outcome State Fault Refusal := s.command State.snapshot

/-- PARAM_VAL_LO_WRITE (R489): Q_PARAM_VAL_LO. -/
def execParamValLoWrite (p : Nat) (acc : Acc) (data : Word) (s : State) : Host.Outcome State Fault Refusal :=
  s.aside (fun s => s.regWrite (qAddr p 0x28) acc data.toNat)

/-- PARAM_VAL_HI_WRITE (R489): Q_PARAM_VAL_HI. -/
def execParamValHiWrite (p : Nat) (acc : Acc) (data : Word) (s : State) : Host.Outcome State Fault Refusal :=
  s.aside (fun s => s.regWrite (qAddr p 0x2C) acc data.toNat)

/-- Whether a read of a register sets work going: H_BATCH_OPEN opens a pass (R291). -/
def readWorks (addr : Nat) : Bool := addr / 4 == 0x20

/-- REGISTER_LO_READ (R469 to R472): a read of a register. -/
def execRegisterLoRead (addr : Nat) (acc : Acc) (s : State) : Host.Outcome State Fault Refusal :=
  if readWorks addr then s.command (fun s => s.regRead addr acc) else s.aside (fun s => s.regRead addr acc)

/-- REGISTER_READ_CLEAR (R469 to R472): a read of a register. -/
def execRegisterReadClear (addr : Nat) (acc : Acc) (s : State) : Host.Outcome State Fault Refusal :=
  if readWorks addr then s.command (fun s => s.regRead addr acc) else s.aside (fun s => s.regRead addr acc)

/-- REGISTER_WRITE (R469 to R474). -/
def execRegisterWrite (addr : Nat) (acc : Acc) (data : Word) (s : State) : Host.Outcome State Fault Refusal :=
  s.command (fun s => s.regWrite addr acc data.toNat)

/-! ## Events (R368, R373) -/

/-- STORM_WINDOW_END (R368). -/
def execStormWindowEnd (p : Nat) (s : State) : Host.Outcome State Fault Refusal := s.command (fun s => s.stormEnd p)

/-- EVT_IRQ_EXPIRY (R373). -/
def execEvtIrqExpiry (s : State) : Host.Outcome State Fault Refusal := s.aside State.evIrqTest

/-! ## Test access (R427, R428) -/

/-- BYPASS. -/
def execBypass (p : Nat) (s : State) : Host.Outcome State Fault Refusal := s.aside (fun s => s.tapDo p .bypass id)

/-- IDCODE. -/
def execIdcode (p : Nat) (s : State) : Host.Outcome State Fault Refusal :=
  s.aside (fun s => s.tapDo p .idcode (fun s => s.setTap p { s.tap p with dr := s.idcodeWord }))

/-- SAMPLE_PRELOAD. -/
def execSamplePreload (p : Nat) (pins preload : BitVec 32) (s : State) : Host.Outcome State Fault Refusal := s.aside (fun s => s.tapSample p pins preload)

/-- EXTEST. -/
def execExtest (p : Nat) (pins drive : BitVec 32) (s : State) : Host.Outcome State Fault Refusal := s.aside (fun s => s.tapExtest p pins drive)

/-- CLAMP. -/
def execClamp (p : Nat) (s : State) : Host.Outcome State Fault Refusal := s.aside (fun s => s.tapDo p .clamp id)

/-- HIGHZ. -/
def execHighz (p : Nat) (s : State) : Host.Outcome State Fault Refusal := s.aside (fun s => s.tapDo p .highz id)

/-- DBG_REG. -/
def execDbgReg (p : Nat) (dr : BitVec 64) (s : State) : Host.Outcome State Fault Refusal := s.command (fun s => s.tapReg p dr)

/-- DBG_MEM_ADDR. -/
def execDbgMemAddr (p : Nat) (dr : BitVec 48) (s : State) : Host.Outcome State Fault Refusal := s.command (fun s => s.tapAddr p dr)

/-- DBG_MEM_DATA. -/
def execDbgMemData (p : Nat) (s : State) : Host.Outcome State Fault Refusal := s.aside (fun s => s.tapData p)

/-- TAP_RESET. -/
def execTapReset (p : Nat) (s : State) : Host.Outcome State Fault Refusal := s.aside (fun s => s.tapReset p)

end Sys2Proof.Machine
end

