-- ==== Sys2Proof/Machine/CmdTide.lean ====
section
/-! DEFINITION. Meanings of the start-up and tide commands, the manifest scan, held manifests and the manifest commands (02, 04, 05,
06, 07, 09, 10, 13). -/

namespace Sys2Proof.Machine

/-! ## Reset, start-up, tide -/

/-- QRESET (R437). -/
def execQreset (strap loop : Bool) (s : State) : Host.Outcome State Fault Refusal := .next ((s.qreset strap loop).keep s)

/-- START_UP (R394). -/
def execStartUp (ch : CharterPort) (bad : List Nat) (s : State) : Host.Outcome State Fault Refusal := s.command (fun s => s.startUp ch bad)

/-- TIDE_COUNT (R35, R38, R39). -/
def execTideCount (count : Nat) (s : State) : Host.Outcome State Fault Refusal := s.command (fun s => s.tideCount count)

/-- TIDE_STALL (R37, R38). -/
def execTideStall (cyc : Nat) (s : State) : Host.Outcome State Fault Refusal := s.command (fun s => s.tideStall cyc)

/-- TIDE_LOST (R38). -/
def execTideLost (cyc : Nat) (s : State) : Host.Outcome State Fault Refusal := s.command (fun s => s.tideLost cyc)

/-! ## Scans -/

/-- MANIFEST_SCAN (R50). -/
def execManifestScan (s : State) : Host.Outcome State Fault Refusal := s.command State.manifestScan

/-- HELD_MANIFEST (R53). -/
def execHeldManifest (s : State) : Host.Outcome State Fault Refusal := s.command State.heldManifest

/-! ## Manifests given as commands (log 41) -/

/-- STEP_START (R97): TYPE 0x1 without CLOSE. -/
def execStepStart (m : Entry) (s : State) : Host.Outcome State Fault Refusal :=
  s.command (fun s => s.manDirect m.toNat (manType m.toNat == 1 && !bitOf m.toNat 416) [])

/-- STEP_CLOSE (R97, R100): TYPE 0x1 with CLOSE. -/
def execStepClose (m : Entry) (s : State) : Host.Outcome State Fault Refusal :=
  s.command (fun s => s.manDirect m.toNat (manType m.toNat == 1 && bitOf m.toNat 416) [])

/-- STEP_ABORT (R101). -/
def execStepAbort (m : Entry) (s : State) : Host.Outcome State Fault Refusal :=
  s.command (fun s => s.manDirect m.toNat (manType m.toNat == 2) [])

/-- VERDICT_FAIL (R141 to R143): VKIND 0x1. -/
def execVerdictFail (m : Entry) (s : State) : Host.Outcome State Fault Refusal :=
  s.command (fun s => s.manDirect m.toNat (manType m.toNat == 3 && fld m.toNat 259 256 == 1) [])

/-- VERDICT_PLACE (R141 to R143): VKIND 0x2. -/
def execVerdictPlace (m : Entry) (s : State) : Host.Outcome State Fault Refusal :=
  s.command (fun s => s.manDirect m.toNat (manType m.toNat == 3 && fld m.toNat 259 256 == 2) [])

/-- JOB_START (R167, R172). -/
def execJobStart (m : Entry) (s : State) : Host.Outcome State Fault Refusal :=
  s.command (fun s => s.manDirect m.toNat (manType m.toNat == 4) [])

/-- JOB_TEARDOWN (R173). -/
def execJobTeardown (m : Entry) (s : State) : Host.Outcome State Fault Refusal :=
  s.command (fun s => s.manDirect m.toNat (manType m.toNat == 5) [])

/-- DRAIN_END (R173, R175). -/
def execDrainEnd (s : State) : Host.Outcome State Fault Refusal := s.command State.drainEnd

/-- TOMBSTONE_EXPIRY (R174). -/
def execTombstoneExpiry (tag : Nat) (s : State) : Host.Outcome State Fault Refusal := s.command (fun s => s.tombExpire tag)

/-- ROLE_CHANGE (R5, R6). -/
def execRoleChange (m : Entry) (s : State) : Host.Outcome State Fault Refusal :=
  s.command (fun s => s.manDirect m.toNat (manType m.toNat == 6) [])

/-- GROUP_DEFINE (R217, R218): GKIND 0x1. -/
def execGroupDefine (m : Entry) (s : State) : Host.Outcome State Fault Refusal :=
  s.command (fun s => s.manDirect m.toNat (manType m.toNat == 7 && byt m.toNat 34 34 != 0) [])

/-- GROUP_DELETE (R217, R218): GKIND 0x0. -/
def execGroupDelete (m : Entry) (s : State) : Host.Outcome State Fault Refusal :=
  s.command (fun s => s.manDirect m.toNat (manType m.toNat == 7 && byt m.toNat 34 34 == 0) [])

/-- COLLECTIVE_LAUNCH (R220 to R226). -/
def execCollectiveLaunch (m : Entry) (s : State) : Host.Outcome State Fault Refusal :=
  s.command (fun s => s.manDirect m.toNat (manType m.toNat == 8) [])

/-- REDUCE_INTO at its launch tide (R214): OP 1. -/
def execReduceInto (cseq : Nat) (s : State) : Host.Outcome State Fault Refusal := s.command (fun s => s.launchDue 1 cseq)

/-- MULTICAST_STORE at its launch tide (R214): OP 2. -/
def execMulticastStore (cseq : Nat) (s : State) : Host.Outcome State Fault Refusal := s.command (fun s => s.launchDue 2 cseq)

/-- GATHER_PUT at its launch tide (R214): OP 3. -/
def execGatherPut (cseq : Nat) (s : State) : Host.Outcome State Fault Refusal := s.command (fun s => s.launchDue 3 cseq)

/-- OPTIMIZER_DESCRIPTOR (R183 to R185): OKIND not 0. -/
def execOptimizerDescriptor (m : Entry) (s : State) : Host.Outcome State Fault Refusal :=
  s.command (fun s => s.manDirect m.toNat (manType m.toNat == 9 && (Desc.ofMan m.toNat).kind != 0) [])

/-- OPTIMIZER_DESCRIPTOR_DELETE (R185): OKIND 0. -/
def execOptimizerDescriptorDelete (m : Entry) (s : State) : Host.Outcome State Fault Refusal :=
  s.command (fun s => s.manDirect m.toNat (manType m.toNat == 9 && (Desc.ofMan m.toNat).kind == 0) [])

/-- OPTIMIZER_BUCKET (R188 to R190), with the datapath faults it meets (R203, R345). -/
def execOptimizerBucket (m : Entry) (faults : List LaneFault) (s : State) : Host.Outcome State Fault Refusal :=
  s.command (fun s => s.manDirect m.toNat (manType m.toNat == 0xA) faults)

/-- LAYER_SCHEDULE (R285 to R287). -/
def execLayerSchedule (m : Entry) (s : State) : Host.Outcome State Fault Refusal :=
  s.command (fun s => s.manDirect m.toNat (manType m.toNat == 0xB) [])

/-- HOLD_PREFETCH_ORDER (R324). -/
def execHoldPrefetchOrder (m : Entry) (s : State) : Host.Outcome State Fault Refusal :=
  s.command (fun s => s.manDirect m.toNat (manType m.toNat == 0xC) [])

/-- REMOTE_READ_CACHE_INVALIDATE (R263). -/
def execRemoteReadCacheInvalidate (m : Entry) (s : State) : Host.Outcome State Fault Refusal :=
  s.command (fun s => s.manDirect m.toNat (manType m.toNat == 0xD) [])

/-- COLD_FLUSH_REQUEST (R404, R408): FKIND flush. -/
def execColdFlushRequest (m : Entry) (s : State) : Host.Outcome State Fault Refusal :=
  s.command (fun s => s.manDirect m.toNat (manType m.toNat == 0xE && byt m.toNat 32 32 != 2) [])

/-- FLUSH_CONFIRM (R409): FKIND confirm. -/
def execFlushConfirm (m : Entry) (s : State) : Host.Outcome State Fault Refusal :=
  s.command (fun s => s.manDirect m.toNat (manType m.toNat == 0xE && byt m.toNat 32 32 == 2) [])

/-- PARK (R57, R58). -/
def execPark (m : Entry) (s : State) : Host.Outcome State Fault Refusal :=
  s.command (fun s => s.manDirect m.toNat (manType m.toNat == 0xF) [])

/-- RESUME (R57, R60). -/
def execResume (m : Entry) (s : State) : Host.Outcome State Fault Refusal :=
  s.command (fun s => s.manDirect m.toNat (manType m.toNat == 0x10) [])

end Sys2Proof.Machine
end

