-- ==== Sys2Proof/Machine/CmdWork.lean ====
section
/-! DEFINITION. Meanings of the commands of collectives, remote memory, salvage, job start, relief, numerics, refresh, integrity and
the locker (05, 06, 07, 08, 09, 11, 13). -/

namespace Sys2Proof.Machine

/-! ## Collectives (R229 to R232, R240, R44, R61) -/

/-- COLL_CONTRIBUTION: PKIND 0x1. -/
def execCollContribution (pos : Nat) (f : Frame) (s : State) : Host.Outcome State Fault Refusal :=
  s.arrival (s.frameIn pos 3 f (pktKind f == 1) (fun s => s.collFrame pos f))

/-- COLL_END: PKIND 0x2. -/
def execCollEnd (pos : Nat) (f : Frame) (s : State) : Host.Outcome State Fault Refusal :=
  s.arrival (s.frameIn pos 4 f (pktKind f == 2) (fun s => s.collFrame pos f))

/-- COLL_RESULT: PKIND 0x3. -/
def execCollResult (pos : Nat) (f : Frame) (s : State) : Host.Outcome State Fault Refusal :=
  s.arrival (s.frameIn pos 3 f (pktKind f == 3) (fun s => s.collFrame pos f))

/-- COLL_BLOCK: PKIND 0x4. -/
def execCollBlock (pos : Nat) (f : Frame) (s : State) : Host.Outcome State Fault Refusal :=
  s.arrival (s.frameIn pos 3 f (pktKind f == 4) (fun s => s.collFrame pos f))

/-- COLL_FINISH: PKIND 0x5. -/
def execCollFinish (pos : Nat) (f : Frame) (s : State) : Host.Outcome State Fault Refusal :=
  s.arrival (s.frameIn pos 4 f (pktKind f == 5) (fun s => s.collFrame pos f))

/-- COLL_STALE: PKIND 0x6. -/
def execCollStale (pos : Nat) (f : Frame) (s : State) : Host.Outcome State Fault Refusal :=
  s.arrival (s.frameIn pos 4 f (pktKind f == 6) (fun s => s.collFrame pos f))

/-- COLL_IDLE (R240). -/
def execCollIdle (cseq : Nat) (s : State) : Host.Outcome State Fault Refusal := s.command (fun s => s.collIdle cseq)

/-- COLL_PARK_LIMIT (R61). -/
def execCollParkLimit (cseq : Nat) (s : State) : Host.Outcome State Fault Refusal := s.command (fun s => s.collParkLimit cseq)

/-- UNLAUNCHED_CSEQ_TIMEOUT (R44). -/
def execUnlaunchedCseqTimeout (cseq : Nat) (s : State) : Host.Outcome State Fault Refusal := s.command (fun s => s.unlaunched cseq)

/-! ## Remote memory (R247 to R268) -/

/-- REMOTE_READ_REQUEST: RKIND 0x1. -/
def execRemoteReadRequest (pos : Nat) (f : Frame) (s : State) : Host.Outcome State Fault Refusal :=
  s.arrival (s.frameIn pos 5 f (pktKind f == 1) (fun s => s.rmtRequest pos f 1 (List.range (RHdr.dec f.pkt).nitem)))

/-- REMOTE_WRITE_REQUEST: RKIND 0x2. -/
def execRemoteWriteRequest (pos : Nat) (f : Frame) (s : State) : Host.Outcome State Fault Refusal :=
  s.arrival (s.frameIn pos 5 f (pktKind f == 2) (fun s => s.rmtRequest pos f 2 (List.range (RHdr.dec f.pkt).nitem)))

/-- Item `n` of an atomic request packet: its OP must be the row's, or one the manual reserves, which is refused with KIND (R264). -/
def State.atomicItem (s : State) (pos : Nat) (f : Frame) (n op : Nat) : Host.Outcome State Fault Refusal :=
  let x := fld (reqItem f.pkt 3 n) 43 40
  s.arrival (s.frameIn pos 5 f (pktKind f == 3 && decide (n < (RHdr.dec f.pkt).nitem) && (x == op || x == 0 || decide (4 < x)))
    (fun s => s.rmtRequest pos f 3 [n]))

/-- ATOMIC_ADD (R264): OP 0x1. -/
def execAtomicAdd (pos : Nat) (f : Frame) (n : Nat) (s : State) : Host.Outcome State Fault Refusal := s.atomicItem pos f n 1

/-- ATOMIC_MIN (R264): OP 0x2. -/
def execAtomicMin (pos : Nat) (f : Frame) (n : Nat) (s : State) : Host.Outcome State Fault Refusal := s.atomicItem pos f n 2

/-- ATOMIC_MAX (R264): OP 0x3. -/
def execAtomicMax (pos : Nat) (f : Frame) (n : Nat) (s : State) : Host.Outcome State Fault Refusal := s.atomicItem pos f n 3

/-- ATOMIC_CAS (R264): OP 0x4. -/
def execAtomicCas (pos : Nat) (f : Frame) (n : Nat) (s : State) : Host.Outcome State Fault Refusal := s.atomicItem pos f n 4

/-- REMOTE_READ_REPLY: RKIND 0x9. -/
def execRemoteReadReply (pos : Nat) (f : Frame) (s : State) : Host.Outcome State Fault Refusal :=
  s.arrival (s.frameIn pos 6 f (pktKind f == 9) (fun s => s.answerFrame pos f))

/-- REMOTE_WRITE_ANSWER: RKIND 0xA. -/
def execRemoteWriteAnswer (pos : Nat) (f : Frame) (s : State) : Host.Outcome State Fault Refusal :=
  s.arrival (s.frameIn pos 6 f (pktKind f == 0xA) (fun s => s.answerFrame pos f))

/-- REMOTE_ATOMIC_REPLY: RKIND 0xB. -/
def execRemoteAtomicReply (pos : Nat) (f : Frame) (s : State) : Host.Outcome State Fault Refusal :=
  s.arrival (s.frameIn pos 6 f (pktKind f == 0xB) (fun s => s.answerFrame pos f))

/-- RMT_ACK_TIMEOUT (R254). -/
def execRmtAckTimeout (pos : Nat) (s : State) : Host.Outcome State Fault Refusal := s.atPort pos (fun s => s.rmtResend pos)

/-- RMT_LIFE_EXPIRY (R254). -/
def execRmtLifeExpiry (pos : Nat) (s : State) : Host.Outcome State Fault Refusal := s.atPort pos (fun s => s.rmtExpire pos)

/-- STREAM_RECORD_FREE (R255). -/
def execStreamRecordFree (pos : Nat) (s : State) : Host.Outcome State Fault Refusal := s.atPort pos (fun s => s.recFree pos)

/-- COMB_FLUSH (R267). -/
def execCombFlush (pos : Nat) (s : State) : Host.Outcome State Fault Refusal := s.atPort pos (fun s => s.combFlush pos)

/-- COMB_IDLE (R267). -/
def execCombIdle (pos : Nat) (s : State) : Host.Outcome State Fault Refusal := s.atPort pos (fun s => s.combIdle pos)

/-! ## Salvage (R151 to R159) -/

/-- SALVAGE_START (R151). -/
def execSalvageStart (s : State) : Host.Outcome State Fault Refusal := s.command State.salvStart

/-- SALVAGE_FREEZE (R153). -/
def execSalvageFreeze (pos : Nat) (m : SalvMsg) (s : State) : Host.Outcome State Fault Refusal :=
  s.arrival (s.msgIn pos (.freeze s.ident.device m))

/-- FROZEN (R153). -/
def execFrozen (pos : Nat) (m : SalvMsg) (s : State) : Host.Outcome State Fault Refusal :=
  s.arrival (s.msgIn pos (.frozenA s.ident.device m))

/-- SALVAGE_PASS (R153, R157). -/
def execSalvagePass (pos : Nat) (m : SalvMsg) (s : State) : Host.Outcome State Fault Refusal :=
  s.arrival (s.msgIn pos (.pass s.ident.device m))

/-- SALVAGE_CHAIN_SUM (R157). -/
def execSalvageChainSum (pos : Nat) (m : SalvMsg) (s : State) : Host.Outcome State Fault Refusal :=
  s.arrival (s.msgIn pos (.chain s.ident.device m))

/-- HELPER_LINES (R153, R156, R349). -/
def execHelperLines (pos : Nat) (m : SalvMsg) (s : State) : Host.Outcome State Fault Refusal :=
  s.arrival (s.msgIn pos (.lines s.ident.device m))

/-- SALV_FREEZE_EXPIRY (R153). -/
def execSalvFreezeExpiry (pos : Nat) (s : State) : Host.Outcome State Fault Refusal := s.atPort pos (fun s => s.freezeExpire pos)

/-! ## Job start (R168 to R176) -/

/-- JOB_IMAGE_PIECE_REQUEST (R169), at logical quay 0. -/
def execJobImagePieceRequest (m : ImgMsg) (s : State) : Host.Outcome State Fault Refusal :=
  s.arrival (s.msgIn 0 (.imgReq s.ident.device m))

/-- JOB_IMAGE_PIECE (R169), at logical quay 0. -/
def execJobImagePiece (m : ImgMsg) (s : State) : Host.Outcome State Fault Refusal := s.arrival (s.msgIn 0 (.imgPiece s.ident.device m))

/-- BCAST_TIMEOUT (R170). -/
def execBcastTimeout (piece : Nat) (s : State) : Host.Outcome State Fault Refusal := s.command (fun s => s.bcastTimeout piece)

/-- JOB_START_FAILED (R170). -/
def execJobStartFailed (s : State) : Host.Outcome State Fault Refusal := s.command State.jobStartFail

/-- JOB_HOLD_EXPIRY (R176). -/
def execJobHoldExpiry (s : State) : Host.Outcome State Fault Refusal := s.command State.jobHoldExpire

/-! ## Failure and relief (R162 to R166, R455) -/

/-- HEARTBEAT_SEND (R162). -/
def execHeartbeatSend (p : Nat) (s : State) : Host.Outcome State Fault Refusal := s.aside (fun s => s.heartbeat p)

/-- HEARTBEAT_MISSED (R162). -/
def execHeartbeatMissed (p : Nat) (s : State) : Host.Outcome State Fault Refusal := s.command (fun s => s.heartbeatLost p)

/-- FATAL_INTERNAL_ERROR (R162). -/
def execFatalInternalError (p : Nat) (s : State) : Host.Outcome State Fault Refusal := s.command (fun s => s.fatal p)

/-- RING_LINK_FAILURE (R455). -/
def execRingLinkFailure (p : Nat) (s : State) : Host.Outcome State Fault Refusal := s.command (fun s => s.ringLost p)

/-- RELIEF_POWER_GOOD (R163). -/
def execReliefPowerGood (p : Nat) (s : State) : Host.Outcome State Fault Refusal := s.command (fun s => s.reliefStep p .switching)

/-- RELIEF_CROSSBAR_SWITCHED (R163). -/
def execReliefCrossbarSwitched (p : Nat) (s : State) : Host.Outcome State Fault Refusal := s.command (fun s => s.reliefStep p .loading)

/-- RELIEF_TABLES_LOADED (R163). -/
def execReliefTablesLoaded (p : Nat) (s : State) : Host.Outcome State Fault Refusal := s.command (fun s => s.reliefStep p .resync)

/-! ## Votes and numerics (R23, R87, R207) -/

/-- VOTE_REPORT (R23). -/
def execVoteReport (pos step : Nat) (s : State) : Host.Outcome State Fault Refusal := s.atPort pos (fun s => s.voteReport pos step)

/-- NUMERICS_SHARE (R207). -/
def execNumericsShare (step : Nat) (s : State) : Host.Outcome State Fault Refusal := s.command (fun s => s.numericsShare step)

/-! ## Refresh (R276 to R297) -/

/-- REFRESH_DATA: RKIND 0x1. -/
def execRefreshData (pos : Nat) (f : Frame) (s : State) : Host.Outcome State Fault Refusal :=
  s.arrival (s.frameIn pos 1 f (pktKind f == 3 && (RfHdr.dec f.pkt).rkind == 1) (fun s => s.refreshFrame pos f))

/-- REFRESH_END: RKIND 0x2. -/
def execRefreshEnd (pos : Nat) (f : Frame) (s : State) : Host.Outcome State Fault Refusal :=
  s.arrival (s.frameIn pos 1 f (pktKind f == 3 && (RfHdr.dec f.pkt).rkind == 2) (fun s => s.refreshFrame pos f))

/-- REFRESH_RESYNC_REQUEST: RKIND 0x3. -/
def execRefreshResyncRequest (pos : Nat) (f : Frame) (s : State) : Host.Outcome State Fault Refusal :=
  s.arrival (s.frameIn pos 1 f (pktKind f == 3 && (RfHdr.dec f.pkt).rkind == 3) (fun s => s.refreshFrame pos f))

/-- REFR_GAP_EXPIRY (R290). -/
def execRefrGapExpiry (s : State) : Host.Outcome State Fault Refusal := s.command State.refrGap

/-- H_BATCH_OPEN (R291): a read of the register. -/
def execHBatchOpen (acc : Acc) (s : State) : Host.Outcome State Fault Refusal := s.command (fun s => s.regRead 0x80 acc)

/-- FLIP_ELIGIBLE (R292). -/
def execFlipEligible (s : State) : Host.Outcome State Fault Refusal := s.command State.flipEligible

/-! ## Integrity (R341 to R359) -/

/-- DREDGE_SLOT (R348). -/
def execDredgeSlot (pos : Nat) (s : State) : Host.Outcome State Fault Refusal := s.dueCommand (.dredge pos) (fun s => s.dredge pos)

/-- KNOWN_ANSWER_RUN (R343). -/
def execKnownAnswerRun (run : KatEnd) (s : State) : Host.Outcome State Fault Refusal := s.dueCommand .kat (fun s => s.katRun run.fails run.errs)

/-- MARGIN_SETTLE_EXPIRY (R346). -/
def execMarginSettleExpiry (p unit : Nat) (pass : Bool) (s : State) : Host.Outcome State Fault Refusal :=
  s.command (fun s => s.marginSettle p unit pass)

/-- MARGIN_HOLD_EXPIRY (R346). -/
def execMarginHoldExpiry (p unit : Nat) (s : State) : Host.Outcome State Fault Refusal := s.command (fun s => s.marginHold p unit)

/-- LOCK_STEP_WINDOW_CLOSE (R359). -/
def execLockStepWindowClose (s : State) : Host.Outcome State Fault Refusal := s.dueCommand .lock State.lockClose

/-- TILE_OPEN_EXPIRY (R341). -/
def execTileOpenExpiry (pos : Nat) (s : State) : Host.Outcome State Fault Refusal := s.atPort pos (fun s => s.tileExpire pos)

/-! ## The locker (R400 to R412) -/

/-- COLD_FLUSH_WINDOW (R404). -/
def execColdFlushWindow (s : State) : Host.Outcome State Fault Refusal := s.dueCommand .flush State.flushWindow

/-- LOCKER_WRITE_ANSWER: KIND 0x9. -/
def execLockerWriteAnswer (pos : Nat) (f : Frame) (s : State) : Host.Outcome State Fault Refusal :=
  s.arrival (s.frameIn pos 7 f (pktKind f == 9) (fun s => s.lockerFrame pos f))

/-- LOCKER_READ_REPLY: KIND 0xA. -/
def execLockerReadReply (pos : Nat) (f : Frame) (s : State) : Host.Outcome State Fault Refusal :=
  s.arrival (s.frameIn pos 7 f (pktKind f == 0xA) (fun s => s.lockerFrame pos f))

/-- LOCKER_ACK_TIMEOUT (R401). -/
def execLockerAckTimeout (pos : Nat) (s : State) : Host.Outcome State Fault Refusal := s.atPort pos (fun s => s.lockTimeout pos)

end Sys2Proof.Machine
end

