-- ==== Sys2Proof/Machine/Dispatch.lean ====
section
/-! DEFINITION. What each command does: one arm per command, each a call of its meaning. -/

namespace Sys2Proof.Machine

/-- The effect of one command on everything but the queue (95: what each command does). -/
def exec (i : Instr) (s : State) : Host.Outcome State Fault Refusal :=
  match i with
  | .qreset strap loop => Sys2Proof.Machine.execQreset strap loop s
  | .startUp ch bad => Sys2Proof.Machine.execStartUp ch bad s
  | .tideCount count => Sys2Proof.Machine.execTideCount count s
  | .tideStall cyc => Sys2Proof.Machine.execTideStall cyc s
  | .tideLost cyc => Sys2Proof.Machine.execTideLost cyc s
  | .manifestScan => Sys2Proof.Machine.execManifestScan s
  | .heldManifest => Sys2Proof.Machine.execHeldManifest s
  | .stepStart m => Sys2Proof.Machine.execStepStart m s
  | .stepClose m => Sys2Proof.Machine.execStepClose m s
  | .stepAbort m => Sys2Proof.Machine.execStepAbort m s
  | .verdictFail m => Sys2Proof.Machine.execVerdictFail m s
  | .verdictPlace m => Sys2Proof.Machine.execVerdictPlace m s
  | .jobStart m => Sys2Proof.Machine.execJobStart m s
  | .jobTeardown m => Sys2Proof.Machine.execJobTeardown m s
  | .drainEnd => Sys2Proof.Machine.execDrainEnd s
  | .tombstoneExpiry tag => Sys2Proof.Machine.execTombstoneExpiry tag s
  | .roleChange m => Sys2Proof.Machine.execRoleChange m s
  | .groupDefine m => Sys2Proof.Machine.execGroupDefine m s
  | .groupDelete m => Sys2Proof.Machine.execGroupDelete m s
  | .collectiveLaunch m => Sys2Proof.Machine.execCollectiveLaunch m s
  | .reduceInto cseq => Sys2Proof.Machine.execReduceInto cseq s
  | .multicastStore cseq => Sys2Proof.Machine.execMulticastStore cseq s
  | .gatherPut cseq => Sys2Proof.Machine.execGatherPut cseq s
  | .optimizerDescriptor m => Sys2Proof.Machine.execOptimizerDescriptor m s
  | .optimizerDescriptorDelete m => Sys2Proof.Machine.execOptimizerDescriptorDelete m s
  | .optimizerBucket m faults => Sys2Proof.Machine.execOptimizerBucket m faults s
  | .layerSchedule m => Sys2Proof.Machine.execLayerSchedule m s
  | .holdPrefetchOrder m => Sys2Proof.Machine.execHoldPrefetchOrder m s
  | .remoteReadCacheInvalidate m => Sys2Proof.Machine.execRemoteReadCacheInvalidate m s
  | .coldFlushRequest m => Sys2Proof.Machine.execColdFlushRequest m s
  | .flushConfirm m => Sys2Proof.Machine.execFlushConfirm m s
  | .park m => Sys2Proof.Machine.execPark m s
  | .resume m => Sys2Proof.Machine.execResume m s
  | .cpRead r => Sys2Proof.Machine.execCpRead r s
  | .cpWrite r => Sys2Proof.Machine.execCpWrite r s
  | .cpRemoteRead r => Sys2Proof.Machine.execCpRemoteRead r s
  | .cpRemoteWrite r => Sys2Proof.Machine.execCpRemoteWrite r s
  | .cpRemoteAtomic r => Sys2Proof.Machine.execCpRemoteAtomic r s
  | .mcReadData pos tag data status => Sys2Proof.Machine.execMcReadData pos tag data status s
  | .mcWriteAck pos tag status => Sys2Proof.Machine.execMcWriteAck pos tag status s
  | .mcTimeout pos => Sys2Proof.Machine.execMcTimeout pos s
  | .lighterHoldExpiry pos => Sys2Proof.Machine.execLighterHoldExpiry pos s
  | .parityDeltaLighter pos f => Sys2Proof.Machine.execParityDeltaLighter pos f s
  | .lighterAck pos f => Sys2Proof.Machine.execLighterAck pos f s
  | .anchorDone pos f => Sys2Proof.Machine.execAnchorDone pos f s
  | .lighterAckTimeout pos => Sys2Proof.Machine.execLighterAckTimeout pos s
  | .sealLate pos => Sys2Proof.Machine.execSealLate pos s
  | .anchorRequest pos a => Sys2Proof.Machine.execAnchorRequest pos a s
  | .anchorAnswer pos a => Sys2Proof.Machine.execAnchorAnswer pos a s
  | .anchorTimeout pos => Sys2Proof.Machine.execAnchorTimeout pos s
  | .streamReset pos a => Sys2Proof.Machine.execStreamReset pos a s
  | .streamResetAnswer pos a => Sys2Proof.Machine.execStreamResetAnswer pos a s
  | .mooringVoteSlot => Sys2Proof.Machine.execMooringVoteSlot s
  | .mooringVote pos f => Sys2Proof.Machine.execMooringVote pos f s
  | .voteRelay pos f => Sys2Proof.Machine.execVoteRelay pos f s
  | .voteRelayEmpty pos f => Sys2Proof.Machine.execVoteRelayEmpty pos f s
  | .joinMessage pos f => Sys2Proof.Machine.execJoinMessage pos f s
  | .fenceNotice pos f => Sys2Proof.Machine.execFenceNotice pos f s
  | .taint pos f => Sys2Proof.Machine.execTaint pos f s
  | .collectiveAbort pos f => Sys2Proof.Machine.execCollectiveAbort pos f s
  | .collectiveAbortResend cseq => Sys2Proof.Machine.execCollectiveAbortResend cseq s
  | .displacementNotice pos f => Sys2Proof.Machine.execDisplacementNotice pos f s
  | .collContribution pos f => Sys2Proof.Machine.execCollContribution pos f s
  | .collEnd pos f => Sys2Proof.Machine.execCollEnd pos f s
  | .collResult pos f => Sys2Proof.Machine.execCollResult pos f s
  | .collBlock pos f => Sys2Proof.Machine.execCollBlock pos f s
  | .collFinish pos f => Sys2Proof.Machine.execCollFinish pos f s
  | .collStale pos f => Sys2Proof.Machine.execCollStale pos f s
  | .collIdle cseq => Sys2Proof.Machine.execCollIdle cseq s
  | .collParkLimit cseq => Sys2Proof.Machine.execCollParkLimit cseq s
  | .unlaunchedCseqTimeout cseq => Sys2Proof.Machine.execUnlaunchedCseqTimeout cseq s
  | .remoteReadRequest pos f => Sys2Proof.Machine.execRemoteReadRequest pos f s
  | .remoteWriteRequest pos f => Sys2Proof.Machine.execRemoteWriteRequest pos f s
  | .atomicAdd pos f n => Sys2Proof.Machine.execAtomicAdd pos f n s
  | .atomicMin pos f n => Sys2Proof.Machine.execAtomicMin pos f n s
  | .atomicMax pos f n => Sys2Proof.Machine.execAtomicMax pos f n s
  | .atomicCas pos f n => Sys2Proof.Machine.execAtomicCas pos f n s
  | .remoteReadReply pos f => Sys2Proof.Machine.execRemoteReadReply pos f s
  | .remoteWriteAnswer pos f => Sys2Proof.Machine.execRemoteWriteAnswer pos f s
  | .remoteAtomicReply pos f => Sys2Proof.Machine.execRemoteAtomicReply pos f s
  | .rmtAckTimeout pos => Sys2Proof.Machine.execRmtAckTimeout pos s
  | .rmtLifeExpiry pos => Sys2Proof.Machine.execRmtLifeExpiry pos s
  | .streamRecordFree pos => Sys2Proof.Machine.execStreamRecordFree pos s
  | .combFlush pos => Sys2Proof.Machine.execCombFlush pos s
  | .combIdle pos => Sys2Proof.Machine.execCombIdle pos s
  | .salvageStart => Sys2Proof.Machine.execSalvageStart s
  | .salvageFreeze pos m => Sys2Proof.Machine.execSalvageFreeze pos m s
  | .frozen pos m => Sys2Proof.Machine.execFrozen pos m s
  | .salvagePass pos m => Sys2Proof.Machine.execSalvagePass pos m s
  | .salvageChainSum pos m => Sys2Proof.Machine.execSalvageChainSum pos m s
  | .helperLines pos m => Sys2Proof.Machine.execHelperLines pos m s
  | .salvFreezeExpiry pos => Sys2Proof.Machine.execSalvFreezeExpiry pos s
  | .jobImagePieceRequest m => Sys2Proof.Machine.execJobImagePieceRequest m s
  | .jobImagePiece m => Sys2Proof.Machine.execJobImagePiece m s
  | .bcastTimeout piece => Sys2Proof.Machine.execBcastTimeout piece s
  | .jobStartFailed => Sys2Proof.Machine.execJobStartFailed s
  | .jobHoldExpiry => Sys2Proof.Machine.execJobHoldExpiry s
  | .heartbeatSend p => Sys2Proof.Machine.execHeartbeatSend p s
  | .heartbeatMissed p => Sys2Proof.Machine.execHeartbeatMissed p s
  | .fatalInternalError p => Sys2Proof.Machine.execFatalInternalError p s
  | .ringLinkFailure p => Sys2Proof.Machine.execRingLinkFailure p s
  | .reliefPowerGood p => Sys2Proof.Machine.execReliefPowerGood p s
  | .reliefCrossbarSwitched p => Sys2Proof.Machine.execReliefCrossbarSwitched p s
  | .reliefTablesLoaded p => Sys2Proof.Machine.execReliefTablesLoaded p s
  | .voteReport pos step => Sys2Proof.Machine.execVoteReport pos step s
  | .numericsShare step => Sys2Proof.Machine.execNumericsShare step s
  | .refreshData pos f => Sys2Proof.Machine.execRefreshData pos f s
  | .refreshEnd pos f => Sys2Proof.Machine.execRefreshEnd pos f s
  | .refreshResyncRequest pos f => Sys2Proof.Machine.execRefreshResyncRequest pos f s
  | .refrGapExpiry => Sys2Proof.Machine.execRefrGapExpiry s
  | .hBatchOpen acc => Sys2Proof.Machine.execHBatchOpen acc s
  | .flipEligible => Sys2Proof.Machine.execFlipEligible s
  | .dredgeSlot pos => Sys2Proof.Machine.execDredgeSlot pos s
  | .knownAnswerRun run => Sys2Proof.Machine.execKnownAnswerRun run s
  | .marginSettleExpiry p unit pass => Sys2Proof.Machine.execMarginSettleExpiry p unit pass s
  | .marginHoldExpiry p unit => Sys2Proof.Machine.execMarginHoldExpiry p unit s
  | .lockStepWindowClose => Sys2Proof.Machine.execLockStepWindowClose s
  | .tileOpenExpiry pos => Sys2Proof.Machine.execTileOpenExpiry pos s
  | .coldFlushWindow => Sys2Proof.Machine.execColdFlushWindow s
  | .lockerWriteAnswer pos f => Sys2Proof.Machine.execLockerWriteAnswer pos f s
  | .lockerReadReply pos f => Sys2Proof.Machine.execLockerReadReply pos f s
  | .lockerAckTimeout pos => Sys2Proof.Machine.execLockerAckTimeout pos s
  | .gradeHoldExpiry => Sys2Proof.Machine.execGradeHoldExpiry s
  | .gradeSettleExpiry => Sys2Proof.Machine.execGradeSettleExpiry s
  | .pilotGradeChange grade => Sys2Proof.Machine.execPilotGradeChange grade s
  | .presenceChange level => Sys2Proof.Machine.execPresenceChange level s
  | .presenceMaxExpiry => Sys2Proof.Machine.execPresenceMaxExpiry s
  | .sealLoopBreak p => Sys2Proof.Machine.execSealLoopBreak p s
  | .sealLoopRestore => Sys2Proof.Machine.execSealLoopRestore s
  | .failStopInAssert p => Sys2Proof.Machine.execFailStopInAssert p s
  | .failStopInRearm => Sys2Proof.Machine.execFailStopInRearm s
  | .ppLinkDown pos => Sys2Proof.Machine.execPpLinkDown pos s
  | .ppLinkUp pos => Sys2Proof.Machine.execPpLinkUp pos s
  | .supplyRemoved => Sys2Proof.Machine.execSupplyRemoved s
  | .pwrReqRun acc key => Sys2Proof.Machine.execPwrReqRun acc key s
  | .pwrReqIdle acc key => Sys2Proof.Machine.execPwrReqIdle acc key s
  | .pwrReqHold acc key => Sys2Proof.Machine.execPwrReqHold acc key s
  | .pwrState => Sys2Proof.Machine.execPwrState s
  | .hWarm acc data => Sys2Proof.Machine.execHWarm acc data s
  | .warmRestart ch bad => Sys2Proof.Machine.execWarmRestart ch bad s
  | .crwGo acc key => Sys2Proof.Machine.execCrwGo acc key s
  | .crwAbort acc key => Sys2Proof.Machine.execCrwAbort acc key s
  | .qCtlEnable p acc key => Sys2Proof.Machine.execQCtlEnable p acc key s
  | .qCtlDisable p acc key => Sys2Proof.Machine.execQCtlDisable p acc key s
  | .qErrqPop p acc => Sys2Proof.Machine.execQErrqPop p acc s
  | .eccFlipArm p acc data => Sys2Proof.Machine.execEccFlipArm p acc data s
  | .counterSnapshotRequest acc user clear => Sys2Proof.Machine.execCounterSnapshotRequest acc user clear s
  | .counterSnapshot => Sys2Proof.Machine.execCounterSnapshot s
  | .paramValLoWrite p acc data => Sys2Proof.Machine.execParamValLoWrite p acc data s
  | .paramValHiWrite p acc data => Sys2Proof.Machine.execParamValHiWrite p acc data s
  | .registerLoRead addr acc => Sys2Proof.Machine.execRegisterLoRead addr acc s
  | .registerReadClear addr acc => Sys2Proof.Machine.execRegisterReadClear addr acc s
  | .registerWrite addr acc data => Sys2Proof.Machine.execRegisterWrite addr acc data s
  | .stormWindowEnd p => Sys2Proof.Machine.execStormWindowEnd p s
  | .evtIrqExpiry => Sys2Proof.Machine.execEvtIrqExpiry s
  | .bypass p => Sys2Proof.Machine.execBypass p s
  | .idcode p => Sys2Proof.Machine.execIdcode p s
  | .samplePreload p pins preload => Sys2Proof.Machine.execSamplePreload p pins preload s
  | .extest p pins drive => Sys2Proof.Machine.execExtest p pins drive s
  | .clamp p => Sys2Proof.Machine.execClamp p s
  | .highz p => Sys2Proof.Machine.execHighz p s
  | .dbgReg p dr => Sys2Proof.Machine.execDbgReg p dr s
  | .dbgMemAddr p dr => Sys2Proof.Machine.execDbgMemAddr p dr s
  | .dbgMemData p => Sys2Proof.Machine.execDbgMemData p s
  | .tapReset p => Sys2Proof.Machine.execTapReset p s
  | .flashCommandDone r => Sys2Proof.Machine.execFlashCommandDone r s
  | .ppFlitCredit pos vc => Sys2Proof.Machine.execPpFlitCredit pos vc s
  | .hrFlitCredit p east cls => Sys2Proof.Machine.execHrFlitCredit p east cls s
  | .sidebandGlitch pin => Sys2Proof.Machine.execSidebandGlitch pin s

end Sys2Proof.Machine
end

