-- ==== Sys2Proof/WellFormed.lean ====
section
/-! DEFINITION. Well-formed commands: every operand fits the field or the number of wires the manual gives it. The machine itself
asks none of this: a command that is not well formed stands for no input of the hardware. -/

namespace Sys2Proof

/-- A value of `n` bits. -/
def fits (n x : Nat) : Bool := decide (x < 2 ^ n)

/-- A port position: at most 16 active quays (R16, R434). -/
def posOk (p : Nat) : Bool := decide (p < 16)

/-- A physical quay: 0 to 15 active, 16 to 19 relief (R16, R457). -/
def physOk (p : Nat) : Bool := decide (p < 20)

/-- A register address: bits [22:2] of the register map (R456). -/
def addrOk (a : Nat) : Bool := fits 23 a && a % 4 == 0

/-- A frame: eight virtual channels, LEN from 1 to 6,144, and a packet of LEN bytes (R446, R447). -/
def Frame.wf (f : Frame) : Bool := decide (f.vc < 8) && decide (1 ≤ f.len) && decide (f.len ≤ 6144) && decide (f.pkt < 2 ^ (8 * f.len))

/-- A compute-port request within the widths of R438. -/
def CpReq.wf (r : CpReq) : Bool :=
  posOk r.pos && decide (r.lane < 4) && fits 16 r.tag && fits 40 r.addr && fits 20 r.dev && fits 4 r.win && fits 32 r.crc && fits 4 r.fmt &&
  fits 2 r.attr && fits 4 r.aop && fits 4 r.atype && fits 8 r.master

/-- A register access: an 8-bit master identifier (R456). -/
def Acc.wf (a : Acc) : Bool := fits 8 a.master

/-- The fields every structured message carries (R92, R144). -/
def Hd.wf (h : Hd) : Bool := fits 20 h.src && fits 16 h.job && fits 32 h.epoch && decide (h.convoy < 16) && posOk h.quay

def AnchorReq.wf (a : AnchorReq) : Bool := a.hd.wf && fits 32 a.stripe && fits 2 a.j && a.only.all (fits 32)

/-- A piece is 32 lines, with one check value each (R92). -/
def AnchorAns.wf (a : AnchorAns) : Bool := a.hd.wf && fits 32 a.stripe && fits 2 a.j && a.piece.length == 32 && a.lcrc.length == 32 && a.lcrc.all (fits 32)

def ResetAns.wf (a : ResetAns) : Bool := a.hd.wf

/-- A line within a piece, or none for the whole (R153). -/
def SalvMsg.wf (m : SalvMsg) : Bool := m.hd.wf && fits 32 m.stripe && fits 20 m.home && m.lines.all (fun x => decide (x < 32))

/-- A 64 KiB piece of the job image (R169). -/
def ImgMsg.wf (m : ImgMsg) : Bool := fits 20 m.src && fits 16 m.job && fits 32 m.epoch && fits 32 m.piece && fits 524288 m.data

/-- A charter memory answers with one kind; an erase opcode is a byte (R384, R385). -/
def CharterPort.wf (c : CharterPort) : Bool := c.spi.all (fun d => fits 32 d.sig && d.erase.all (fits 8))

def LaneFault.wf (f : LaneFault) : Bool := posOk f.quay && decide (f.elem < 64)

/-- Whether a command's operands fit their fields. -/
def Instr.wf : Instr → Bool
  | .qreset _ _ | .tideStall _ | .tideLost _ | .manifestScan | .heldManifest | .stepStart _ | .stepClose _ | .stepAbort _
    | .verdictFail _ | .verdictPlace _ | .jobStart _ | .jobTeardown _ | .drainEnd | .roleChange _ | .groupDefine _
    | .groupDelete _ | .collectiveLaunch _ | .optimizerDescriptor _ | .optimizerDescriptorDelete _ | .layerSchedule _
    | .holdPrefetchOrder _ | .remoteReadCacheInvalidate _ | .coldFlushRequest _ | .flushConfirm _ | .park _ | .resume _
    | .mooringVoteSlot | .salvageStart | .jobStartFailed | .jobHoldExpiry | .refrGapExpiry | .flipEligible
    | .lockStepWindowClose | .coldFlushWindow | .gradeHoldExpiry | .gradeSettleExpiry | .presenceChange _
    | .presenceMaxExpiry | .sealLoopRestore | .failStopInRearm | .supplyRemoved | .pwrState | .counterSnapshot
    | .evtIrqExpiry | .flashCommandDone _ | .sidebandGlitch _ => true
  | .startUp ch bad | .warmRestart ch bad => ch.wf && bad.all physOk
  | .tideCount count => fits 64 count
  | .tombstoneExpiry tag => fits 16 tag
  | .reduceInto cseq | .multicastStore cseq | .gatherPut cseq | .collectiveAbortResend cseq | .collIdle cseq
    | .collParkLimit cseq | .unlaunchedCseqTimeout cseq => fits 32 cseq
  | .optimizerBucket _ faults => faults.all LaneFault.wf
  | .cpRead r | .cpWrite r | .cpRemoteRead r | .cpRemoteWrite r | .cpRemoteAtomic r => r.wf
  | .mcReadData pos tag _ status | .mcWriteAck pos tag status => posOk pos && fits 12 tag && fits 2 status
  | .mcTimeout pos | .lighterHoldExpiry pos | .lighterAckTimeout pos | .sealLate pos | .anchorTimeout pos
    | .rmtAckTimeout pos | .rmtLifeExpiry pos | .streamRecordFree pos | .combFlush pos | .combIdle pos
    | .salvFreezeExpiry pos | .dredgeSlot pos | .tileOpenExpiry pos | .lockerAckTimeout pos | .ppLinkDown pos
    | .ppLinkUp pos => posOk pos
  | .parityDeltaLighter pos f | .lighterAck pos f | .anchorDone pos f | .mooringVote pos f | .voteRelay pos f
    | .voteRelayEmpty pos f | .joinMessage pos f | .fenceNotice pos f | .taint pos f | .collectiveAbort pos f
    | .displacementNotice pos f | .collContribution pos f | .collEnd pos f | .collResult pos f | .collBlock pos f
    | .collFinish pos f | .collStale pos f | .remoteReadRequest pos f | .remoteWriteRequest pos f | .remoteReadReply pos f
    | .remoteWriteAnswer pos f | .remoteAtomicReply pos f | .refreshData pos f | .refreshEnd pos f
    | .refreshResyncRequest pos f | .lockerWriteAnswer pos f | .lockerReadReply pos f => posOk pos && f.wf
  | .anchorRequest pos a | .anchorAnswer pos a | .streamReset pos a | .streamResetAnswer pos a => posOk pos && a.wf
  | .atomicAdd pos f n | .atomicMin pos f n | .atomicMax pos f n | .atomicCas pos f n => posOk pos && f.wf && decide (n < 128)
  | .salvageFreeze pos m | .frozen pos m | .salvagePass pos m | .salvageChainSum pos m | .helperLines pos m => posOk pos && m.wf
  | .jobImagePieceRequest m | .jobImagePiece m => m.wf
  | .bcastTimeout piece => fits 32 piece
  | .heartbeatSend p | .heartbeatMissed p | .fatalInternalError p | .ringLinkFailure p | .reliefPowerGood p
    | .reliefCrossbarSwitched p | .reliefTablesLoaded p | .sealLoopBreak p | .failStopInAssert p | .stormWindowEnd p
    | .bypass p | .idcode p | .samplePreload p _ _ | .extest p _ _ | .clamp p | .highz p | .dbgReg p _ | .dbgMemAddr p _
    | .dbgMemData p | .tapReset p => physOk p
  | .voteReport pos step => posOk pos && fits 48 step
  | .numericsShare step => fits 48 step
  | .hBatchOpen acc | .hWarm acc _ | .counterSnapshotRequest acc _ _ => acc.wf
  | .knownAnswerRun run => (run.fails ++ run.errs).all (fun e => physOk e.1 && decide (e.2 < 16))
  | .marginSettleExpiry p unit _ | .marginHoldExpiry p unit => physOk p && decide (unit < 16)
  | .pilotGradeChange grade => decide (grade < 8)
  | .pwrReqRun acc key | .pwrReqIdle acc key | .pwrReqHold acc key | .crwGo acc key | .crwAbort acc key => acc.wf && fits 32 key
  | .qCtlEnable p acc key | .qCtlDisable p acc key => physOk p && acc.wf && fits 32 key
  | .qErrqPop p acc | .eccFlipArm p acc _ | .paramValLoWrite p acc _ | .paramValHiWrite p acc _ => physOk p && acc.wf
  | .registerLoRead addr acc | .registerReadClear addr acc | .registerWrite addr acc _ => addrOk addr && acc.wf
  | .ppFlitCredit pos vc => posOk pos && decide (vc < 8)
  | .hrFlitCredit p _ cls => physOk p && decide (1 ≤ cls) && decide (cls ≤ 6)

end Sys2Proof
end

