-- ==== Sys2Proof/Safety.lean ====
section
/-! DEFINITION. What counts as a safe step, in the terms the statements use. -/

namespace Sys2Proof.Machine

/-- A step that neither stops with a fault nor is refused. -/
def Completes (o : Host.Outcome State Fault Refusal) : Prop := ∃ t, o = .next t

/-- Every command that waits is well formed. -/
def State.QueueWf (s : State) : Prop := ∀ c ∈ s.pending, c.wf = true

/-- Every command that waits is well formed, and the one at the front completes. -/
def State.QueueSafe (s : State) : Prop := s.QueueWf ∧ ∀ c rest, s.pending = c :: rest → Completes (exec c { s with pending := rest })

/-- The harbour has power: not in Off (R426). -/
def State.Powered (s : State) : Prop := s.pwr.off = false

/-- A port position the integration has (R434). -/
def State.HasPort (s : State) (l : Nat) : Prop := l < s.fit.nActive

/-- Nothing is under way that can go on by itself, and no ECC flip mask waits for a write (R338). -/
def State.AtRest (s : State) : Prop :=
  s.still = true ∧ ∀ p ∈ s.physAll, (s.quay p).flip2.getLsbD 31 = false ∧ (s.quay p).flips = []

/-- A peer port that takes a frame: the position exists, no crossbar keeps what arrives there, its quay receives, and the frame
passes the checks of R447 to R451 as a packet of its row. -/
def State.Takes (s : State) (l vc : Nat) (f : Frame) : Prop :=
  s.HasPort l ∧ s.xbarKeeps l = false ∧ s.rxOpen l = true ∧
    s.frameOk l vc f ((vcKinds vc).contains (pktKind f)) (pktSrc f) = true

/-- A position that takes messages without a layout (log 9). -/
def State.Hears (s : State) (l : Nat) : Prop := s.HasPort l ∧ s.xbarKeeps l = false ∧ s.rxOpen l = true

/-- An integration as R16 and R17 allow it: 1 to 16 active quays and at most 4 relief quays on dies 0 to 7, both numbered in
ascending die order, at most one relief quay on a die, and each relief quay on the die of an active one. -/
def Fit.ok (f : Fit) : Bool :=
  decide (1 ≤ f.nActive) && decide (f.nActive ≤ 16) && decide (f.nRelief ≤ 4) && f.dieOf.length == f.nActive &&
  f.reliefDie.length == f.nRelief && f.dieOf.all (fun d => decide (d < 8)) && decide (f.dieOf.Pairwise (· ≤ ·)) &&
  decide (f.reliefDie.Pairwise (· < ·)) && f.reliefDie.all (fun d => f.dieOf.contains d)

/-- The command that stands for a manifest, by its TYPE and the field that tells two commands of one TYPE apart: CLOSE, VKIND, GKIND,
OKIND, FKIND (R49, R97, R141, R183, R217, R408). -/
def manRow (m : Entry) (faults : List LaneFault) : Option Instr :=
  let v := m.toNat
  match manType v with
  | 1 => some (if bitOf v 416 then .stepClose m else .stepStart m)
  | 2 => some (.stepAbort m)
  | 3 => if fld v 259 256 == 1 then some (.verdictFail m) else if fld v 259 256 == 2 then some (.verdictPlace m) else none
  | 4 => some (.jobStart m)
  | 5 => some (.jobTeardown m)
  | 6 => some (.roleChange m)
  | 7 => some (if byt v 34 34 == 0 then .groupDelete m else .groupDefine m)
  | 8 => some (.collectiveLaunch m)
  | 9 => some (if (Desc.ofMan v).kind == 0 then .optimizerDescriptorDelete m else .optimizerDescriptor m)
  | 0xA => some (.optimizerBucket m faults)
  | 0xB => some (.layerSchedule m)
  | 0xC => some (.holdPrefetchOrder m)
  | 0xD => some (.remoteReadCacheInvalidate m)
  | 0xE => some (if byt v 32 32 == 2 then .flushConfirm m else .coldFlushRequest m)
  | 0xF => some (.park m)
  | 0x10 => some (.resume m)
  | _ => none

/-- The datapath faults a manifest command carries: only an optimizer bucket's matter. -/
def rowFaults (m : Entry) (faults : List LaneFault) : List LaneFault := if manType m.toNat == 0xA then faults else []

/-- A harbour that acts on the manifest `m` given to it: READY with every quay enabled, no tide fault running, in Run, and the ring of the
manifest's kind in service (R43, R45, R50). -/
def State.TakesManifests (s : State) (m : Entry) : Prop :=
  s.Powered ∧ s.boot.phase = 5 ∧ s.allEnabled = true ∧ s.eventsRun = true ∧ s.pwr.state = .run ∧ s.ringUp (manType m.toNat == 3) = true

/-- Such a manifest that also passes the checks of R51 and whose EFFECT has come: 0, the current tide or one before it (R39, R53). -/
def State.ReadsManifest (s : State) (m : Entry) : Prop :=
  s.TakesManifests m ∧ s.manCheck (manType m.toNat == 3) (manSeq m.toNat) m.toNat true = 0 ∧ manEffect m.toNat ≤ s.tide.now

/-- What a step answers when the manifest `m`, acting at `s`, gives `t`: a late one is counted, the quays are told, and the rest follows by itself
(R22, R39, R54). -/
def State.acted (s : State) (m : Entry) (t : State) : Host.Outcome State Fault Refusal :=
  .next (s.after (fun _ => (if manEffect m.toNat ≠ 0 ∧ manEffect m.toNat < s.tide.now then t.countH 0x10 else t).manSent (manSeq m.toNat) m.toNat))

/-- Traffic of the active job from a device that is not fenced, at a harbour that is not quiescent (R144, R146). -/
def State.JobTraffic (s : State) (job src : Nat) : Prop :=
  s.jobGate job = .active ∧ s.quiet = false ∧ s.isFenced src = false

/-- The state in which an accepted frame is looked at: its receive credits are used, and an Idle harbour is back in Run. -/
def State.onFrame (s : State) (l : Nat) (f : Frame) : State := (s.rxTake l f).wake

/-- The event at the head of the due ones, and the state without it (R43). -/
def State.DueHead (s : State) (e : DueEv) (rest : List DueEv) : Prop := s.man.due = e :: rest ∧ s.eventsRun = true
def State.withDue (s : State) (rest : List DueEv) : State := { s with man := { s.man with due := rest } }

/-- A quay block that takes register accesses: fitted, not failed, not a spare, with the block out of Hold (R429, R468, R491). -/
def State.QuayOpen (s : State) (p : Nat) : Prop :=
  p < 20 ∧ s.fitted p = true ∧ (s.quay p).failed = false ∧ s.spare p = false ∧ s.pwr.state ≠ .hold

/-! ## Words the statements use -/

/-- The product of two polynomials over GF(2) held as bits, for a second factor below x^8 (R71). -/
def polyMul (a b : Nat) : Nat := (List.range 8).foldl (fun r i => if b.testBit i then r ^^^ (a <<< i) else r) 0

/-- A polynomial below x^15 modulo x^8 + x^4 + x^3 + x^2 + 1 (R71). -/
def polyMod (v : Nat) : Nat := [14, 13, 12, 11, 10, 9, 8].foldl (fun r i => if r.testBit i then r ^^^ (0x11D <<< (i - 8)) else r) v

/-- Every field of a lighter header fits its width (R76). -/
def LHdr.Fits (h : LHdr) : Prop :=
  h.type < 2 ^ 4 ∧ h.resend < 2 ∧ h.undo < 2 ∧ h.relief < 2 ∧ h.didx < 2 ^ 5 ∧ h.convoy < 2 ^ 4 ∧ h.quay < 2 ^ 4 ∧ h.src < 2 ^ 20 ∧
  h.job < 2 ^ 16 ∧ h.epoch < 2 ^ 32 ∧ h.step < 2 ^ 48 ∧ h.stripe < 2 ^ 32 ∧ h.lseq < 2 ^ 32 ∧ h.mask < 2 ^ 32 ∧ h.bodyLen < 2 ^ 13 ∧
  h.dpos < 2 ^ 6 ∧ h.j < 2 ^ 2

/-- Every field of an acknowledgement fits its width (R83). -/
def LAck.Fits (a : LAck) : Prop :=
  a.type < 2 ^ 4 ∧ a.status < 2 ^ 4 ∧ a.quay < 2 ^ 4 ∧ a.holder < 2 ^ 20 ∧ a.job < 2 ^ 16 ∧ a.epoch < 2 ^ 32 ∧ a.lseq < 2 ^ 32

/-- Every field of a collective header fits its width (R228). -/
def CHdr.Fits (h : CHdr) : Prop :=
  h.kind < 2 ^ 4 ∧ h.nlines < 2 ^ 8 ∧ h.job < 2 ^ 16 ∧ h.epoch < 2 ^ 32 ∧ h.cseq < 2 ^ 32 ∧ h.gid < 2 ^ 12 ∧ h.srcq < 2 ^ 4 ∧
  h.dstq < 2 ^ 4 ∧ h.sidx < 2 ^ 17 ∧ h.off < 2 ^ 32 ∧ h.ldig < 2 ^ 32

/-- Every field of a remote-memory header fits its width (R249). -/
def RHdr.Fits (h : RHdr) : Prop :=
  h.kind < 2 ^ 4 ∧ h.nitem < 2 ^ 8 ∧ h.job < 2 ^ 16 ∧ h.epoch < 2 ^ 32 ∧ h.src < 2 ^ 20 ∧ h.srcq < 2 ^ 4 ∧ h.dstq < 2 ^ 4 ∧
  h.dst < 2 ^ 20 ∧ h.win < 2 ^ 4 ∧ h.rseq < 2 ^ 32 ∧ h.low < 2 ^ 32 ∧ h.itide < 2 ^ 64

/-- Every field of a refresh header fits its width (R280). -/
def RfHdr.Fits (h : RfHdr) : Prop :=
  h.rkind < 2 ^ 4 ∧ h.job < 2 ^ 16 ∧ h.epoch < 2 ^ 32 ∧ h.src < 2 ^ 20 ∧ h.srcq < 2 ^ 4 ∧ h.entry < 2 ^ 8 ∧ h.version < 2 ^ 48 ∧
  h.gtag < 2 ^ 12 ∧ h.fmt < 2 ^ 4 ∧ h.first < 2 ^ 32 ∧ h.mask < 2 ^ 64 ∧ h.blen < 2 ^ 16 ∧ h.gid < 2 ^ 12 ∧ h.fseq < 2 ^ 32 ∧ h.bcrc < 2 ^ 32

/-- Whether two channel commands may not be unanswered together: of one line, and one of them a write (R444). -/
def McCmd.conflicts (a b : McCmd) : Bool := a.addr == b.addr && (a.wr.isSome || b.wr.isSome)

/-- A command that has been sent never follows one it conflicts with. -/
def McOrdered (mc : List McCmd) : Prop := mc.Pairwise (fun a b => a.conflicts b = true → b.tag = none)

/-- Commands of a list that are unanswered at the port: those sent. -/
def mcSent (mc : List McCmd) : List McCmd := mc.filter (fun c => c.tag.isSome)

/-- Events that the entries of an error queue stand for (R367, R368). -/
def QEv.total (q : QEv) : Nat := (q.errq.map (·.count)).sum

end Sys2Proof.Machine
end

