-- ==== Sys2Proof/Certificates/Slice0/Obligations.lean ====
section
/-! DEFINITION. The statements for the provers. Part 1 says how a step runs a command and where each command completes; part 2 says
what single commands and the shared operations give. -/

open Sys2Proof Sys2Proof.Machine

/-! ## A step -/

/-- A step runs the command at the front of the queue on the state with the queue's rest; with an empty queue the block idles, which is
the model's own rule (log 8). -/
def Obligations.StepRunsCommand : Prop :=
  (∀ (c : Instr) (rest : List Instr) (s : State), step { s with pending := c :: rest } = exec c { s with pending := rest }) ∧
  ∀ s : State, s.pending = [] → step s = .next s

/-- First in, first out: a step takes the front command and no other, and no command enters another (the model's queue). -/
def Obligations.QueueAdvances : Prop :=
  ∀ (s t : State) (c : Instr) (rest : List Instr), s.pending = c :: rest → step s = .next t → t.pending = rest

/-- Every step keeps the integration: an arrangement of quays and dies that R16 and R17 allow stays one, and the indices never
change. -/
def Obligations.IntegrationKept : Prop :=
  ∀ s t : State, s.fit.ok = true → step s = .next t → t.fit.ok = true ∧ t.fit = s.fit

/-- The integration the model presumes at reset is one R16 and R17 allow (log 50), and reset leaves the queue empty. -/
def Obligations.ResetIntegration : Prop := State.reset.fit.ok = true ∧ State.reset.pending = []

/-- Reset leaves every quay disabled, the counters at 0 and no job (R394), the harbour Sealed (R414) in Run, and no tide accepted. -/
def Obligations.ResetState : Prop :=
  (∀ p, (State.reset.quay p).enabled = false ∧ (State.reset.quay p).cnt.live = [] ∧ (State.reset.quay p).pools.live = []) ∧
  State.reset.job.phase = .none ∧ State.reset.job.epoch = 0 ∧ State.reset.sec.state = .sealed ∧ State.reset.pwr.state = .run ∧
  State.reset.tide.started = false ∧ State.reset.boot.phase = 0 ∧ State.reset.ev.alarm = 0 ∧ State.reset.ev.irqStat = 0

/-- Without supply no command has an effect but a reset and the removal itself; a command at a port the integration lacks stops as it
does with supply (R426, R434; that memory keeps what it held is the model's choice, log 51). -/
def Obligations.OffIgnores : Prop :=
  ∀ (c : Instr) (s : State), s.pwr.off = true → (∀ a b, c ≠ .qreset a b) → c ≠ .supplyRemoved →
    exec c s = .next s ∨ exec c s = .fault .noSuchPort

/-! ## Where commands complete -/

/-- Compute-port requests that cp_req_ready takes and whose carried check value agrees run their request: a local read, a local write, and
the three remote ones, which also need a free outstanding-operation entry (R252, R329, R438 to R441). -/
def Obligations.ComputePortRuns : Prop :=
  ∀ (s : State) (r : CpReq), s.Powered → s.HasPort r.pos → r.lane < 4 → s.cpLost r.pos = false → s.cpStalls 1 r = false →
    cpCrcBad r = false → s.pwr.state = .run →
    let a : CntAttr := { priv := some r.priv, master := some r.master, addr := some r.addr, kind := some (s.kindOf r.pos r.addr) }
    exec (.cpRead r) s =
      .next (s.after (fun s => (s.countL r.pos 0x00 1 a).readReq r.pos (.cp r.lane r.tag) r.fmt r.addr r.priv r.master)) ∧
    exec (.cpWrite r) s =
      .next (s.after (fun s => (s.countL r.pos 0x01 1 a).writeReq r.pos (.cp r.lane r.tag) (.write r.mask r.data r.poison) r.addr r.priv r.master)) ∧
    ((s.lquay r.pos).rmt.oot.length < 16384 →
      exec (.cpRemoteRead r) s = .next (s.after (fun s => s.rmtIssue r.pos r 1)) ∧
      exec (.cpRemoteWrite r) s = .next (s.after (fun s => s.rmtIssue r.pos r 2)) ∧
      exec (.cpRemoteAtomic r) s = .next (s.after (fun s => s.rmtIssue r.pos r 3)))

/-- The channel port's answers to a command that waits for them: read data frees the command's tag and goes to its operation, an
acknowledgement OK or ERROR ends the write, an OK for a replayed line of an abort or a rebuilt line of a salvage going on to that work
(R124, R158), and a command past MC_TIMEOUT_T is a fatal internal error (R442, R443, R445). -/
def Obligations.ChannelPortAnswers : Prop :=
  ∀ (s : State) (pos tag status : Nat) (data : Line) (c : McCmd) (d : McData), s.Powered → s.HasPort pos →
    (s.mcFind pos tag false = some c → exec (.mcReadData pos tag data status) s = .next (s.after (fun s => s.mcRead pos tag data status))) ∧
    (s.mcFind pos tag true = some c → c.wr = some d →
      ((∀ slot, c.use ≠ .replay slot) → (∀ cv no line, c.use ≠ .rebuilt cv no line) →
        exec (.mcWriteAck pos tag 0) s = .next (s.after (fun s => s.writeOk pos c))) ∧
      (∀ slot, c.use = .replay slot →
        exec (.mcWriteAck pos tag 0) s = .next (s.after (fun s => (s.writeOk pos c).replayAcked pos slot))) ∧
      (∀ cv no line, c.use = .rebuilt cv no line →
        exec (.mcWriteAck pos tag 0) s = .next (s.after (fun s => (s.writeOk pos c).rebuiltDone pos cv no line))) ∧
      (status ≠ 0 → exec (.mcWriteAck pos tag status) s = .next (s.after (fun s => s.writeErr pos c d)))) ∧
    ((s.lquay pos).mc.any (fun c => c.tag.isSome && s.passed c.since (s.lpar pos .mcTimeoutT)) = true →
      exec (.mcTimeout pos) s = .next (s.after (fun s => s.fatalL pos)))

/-- The timers of a port position run their rule on it: lighters, anchors, remote memory, combining, freezes, tiles, the locker and the vote
reports (R74, R85, R88, R94, R254, R255, R267, R153, R341, R401, R23). -/
def Obligations.PortTimersRun : Prop :=
  ∀ (s : State) (pos n : Nat), s.Powered → s.HasPort pos →
    exec (.lighterHoldExpiry pos) s = .next (s.after (fun s => s.holdExpire pos)) ∧
    exec (.lighterAckTimeout pos) s = .next (s.after (fun s => s.ackTimeout pos)) ∧
    exec (.sealLate pos) s = .next (s.after (fun s => s.sealLate pos)) ∧
    exec (.anchorTimeout pos) s = .next (s.after (fun s => s.anchorTimeouts pos)) ∧
    exec (.rmtAckTimeout pos) s = .next (s.after (fun s => s.rmtResend pos)) ∧
    exec (.rmtLifeExpiry pos) s = .next (s.after (fun s => s.rmtExpire pos)) ∧
    exec (.streamRecordFree pos) s = .next (s.after (fun s => s.recFree pos)) ∧
    exec (.combFlush pos) s = .next (s.after (fun s => s.combFlush pos)) ∧
    exec (.combIdle pos) s = .next (s.after (fun s => s.combIdle pos)) ∧
    exec (.salvFreezeExpiry pos) s = .next (s.after (fun s => s.freezeExpire pos)) ∧
    exec (.tileOpenExpiry pos) s = .next (s.after (fun s => s.tileExpire pos)) ∧
    exec (.lockerAckTimeout pos) s = .next (s.after (fun s => s.lockTimeout pos)) ∧
    exec (.voteReport pos n) s = .next (s.after (fun s => s.voteReport pos n))

/-- The timers and reports of the harbour run their rule: jobs, collectives, salvage, the job image, numerics, refresh, margins, counters,
the storm window and the charter's flash (R149, R151, R170, R173, R174, R176, R207, R240, R44, R61, R290, R292, R346, R368, R381, R431). -/
def Obligations.HarbourTimersRun : Prop :=
  ∀ (s : State) (n u : Nat) (pass : Bool) (fl : FlashEnd), s.Powered →
    exec .drainEnd s = .next (s.after State.drainEnd) ∧
    exec (.tombstoneExpiry n) s = .next (s.after (fun s => s.tombExpire n)) ∧
    exec (.collectiveAbortResend n) s = .next (s.after (fun s => s.abortResend n)) ∧
    exec (.collIdle n) s = .next (s.after (fun s => s.collIdle n)) ∧
    exec (.collParkLimit n) s = .next (s.after (fun s => s.collParkLimit n)) ∧
    exec (.unlaunchedCseqTimeout n) s = .next (s.after (fun s => s.unlaunched n)) ∧
    exec .salvageStart s = .next (s.after State.salvStart) ∧
    exec (.bcastTimeout n) s = .next (s.after (fun s => s.bcastTimeout n)) ∧
    exec .jobStartFailed s = .next (s.after State.jobStartFail) ∧
    exec .jobHoldExpiry s = .next (s.after State.jobHoldExpire) ∧
    exec (.numericsShare n) s = .next (s.after (fun s => s.numericsShare n)) ∧
    exec .refrGapExpiry s = .next (s.after State.refrGap) ∧
    exec .flipEligible s = .next (s.after State.flipEligible) ∧
    exec (.marginSettleExpiry n u pass) s = .next (s.after (fun s => s.marginSettle n u pass)) ∧
    exec (.marginHoldExpiry n u) s = .next (s.after (fun s => s.marginHold n u)) ∧
    exec .counterSnapshot s = .next (s.after State.snapshot) ∧
    exec (.stormWindowEnd n) s = .next (s.after (fun s => s.stormEnd n)) ∧
    exec (.flashCommandDone fl) s = .next (s.after (fun s => s.flashDone fl))

/-- Failure and relief of a quay in service: the fourth heartbeat missed in a row, a fatal internal error and a broken ring link each
declare it failed (R162, R455), and the relief sequence moves on one stage with each report of the die (R163). -/
def Obligations.ReliefRuns : Prop :=
  ∀ (s : State) (p : Nat), s.Powered →
    ((s.quay p).inService = true → s.pwr.state ≠ .hold → (s.watcher p).isSome = true → 3 ≤ (s.quay p).hb →
      exec (.heartbeatMissed p) s =
        .next (s.after (fun s => State.fatal (s.modQuay p (fun q => { q with hb := q.hb + 1 })) p))) ∧
    exec (.fatalInternalError p) s = .next (s.after (fun s => s.fatal p)) ∧
    ((s.quay p).inService = true → exec (.ringLinkFailure p) s = .next (s.after (fun s => s.fatal p))) ∧
    exec (.reliefPowerGood p) s = .next (s.after (fun s => s.reliefStep p .switching)) ∧
    exec (.reliefCrossbarSwitched p) s = .next (s.after (fun s => s.reliefStep p .loading)) ∧
    exec (.reliefTablesLoaded p) s = .next (s.after (fun s => s.reliefStep p .resync))

/-- A scheduled event at the head of the due ones leaves them and runs: the vote slot, the lock-step window, the known-answer run, the
dredge slot and the flush window (R43, R118, R343, R348, R359, R404). -/
def Obligations.DueEventsRun : Prop :=
  ∀ (s : State) (rest : List DueEv) (l : Nat) (run : KatEnd), s.Powered →
    (s.DueHead .vote rest → exec .mooringVoteSlot s = .next (s.after (fun s => (s.withDue rest).voteSlot))) ∧
    (s.DueHead .lock rest → exec .lockStepWindowClose s = .next (s.after (fun s => (s.withDue rest).lockClose))) ∧
    (s.DueHead .kat rest → exec (.knownAnswerRun run) s = .next (s.after (fun s => (s.withDue rest).katRun run.fails run.errs))) ∧
    (s.DueHead (.dredge l) rest → exec (.dredgeSlot l) s = .next (s.after (fun s => (s.withDue rest).dredge l))) ∧
    (s.DueHead .flush rest → exec .coldFlushWindow s = .next (s.after (fun s => (s.withDue rest).flushWindow)))

/-- The scan tide and what it may stand for: a READY harbour in Run scans both rings after its security state, its power request and its
grade, held manifests take effect at their tide, and a warm restart that is requested takes the scan's place: the scan begins it, and the
restart command runs the sequence, at the scan tide or once begun (R43, R50, R53, R398). -/
def Obligations.ScanTideRuns : Prop :=
  ∀ (s : State) (rest : List DueEv) (ch : CharterPort) (bad : List Nat), s.Powered →
    (s.DueHead .scan rest →
      let s1 := (s.withDue rest).scanBegin
      s1.boot.warmReq = false → s1.pwrTake = s1 → s1.gradeScan.pwr.state ≠ .idle →
      exec .manifestScan s = .next (s.after (fun _ => s1.gradeScan.evScan.scanRings))) ∧
    (s.DueHead .scan rest → (s.withDue rest).scanBegin.boot.warmReq = true →
      exec .manifestScan s = .next (s.after (fun s => (s.withDue rest).scanBegin.warmBegin))) ∧
    (s.DueHead .held rest → s.boot.phase = 5 → (s.withDue rest).allEnabled = true →
      exec .heldManifest s = .next (s.after (fun s => (s.withDue rest).heldDue))) ∧
    (s.DueHead .scan rest → s.boot.phase ≠ 7 → (s.withDue rest).secScan.boot.warmReq = true →
      exec (.warmRestart ch bad) s = .next (s.after (fun s => (s.withDue rest).secScan.warmRestart ch bad))) ∧
    (s.boot.phase = 7 → exec (.warmRestart ch bad) s = .next (s.after (fun s => s.bootRun ch bad)))

/-- A held launch whose tide has come starts its collective, by its OP: reduce-into, multicast-store, gather-put (R53, R214, R225). -/
def Obligations.LaunchesRun : Prop :=
  ∀ (s : State) (cseq : Nat) (h : Held) (rest : List DueEv), s.Powered → s.DueHead (.launch cseq) rest → s.heldLaunch cseq = some h →
    (byt h.entry.toNat 34 34 = 1 → exec (.reduceInto cseq) s = .next (s.after (fun s => (s.withDue rest).launch h))) ∧
    (byt h.entry.toNat 34 34 = 2 → exec (.multicastStore cseq) s = .next (s.after (fun s => (s.withDue rest).launch h))) ∧
    (byt h.entry.toNat 34 34 = 3 → exec (.gatherPut cseq) s = .next (s.after (fun s => (s.withDue rest).launch h)))

/-- Every manifest given to a READY harbour that passes the checks of R51 and whose EFFECT has come has its type's effect where its fields and the
state meet the conditions of its rule: step start, close and abort, the verdicts, job start and teardown, role change, group define and delete,
collective launch, the optimizer's three, layer schedule, prefetch order, cache invalidate, flush request and confirm, park and resume. It
is announced to the quays on the control class, and one of a later EFFECT is held, but for a flush manifest, which waits in its ring while a flush
runs, and a confirm, which acts at the scan that reads it (R22, R39, R53, R408). -/
def Obligations.ManifestsAct : Prop :=
  (∀ (s s' : State) (m : Entry) (faults : List LaneFault) (i : Instr), manRow m faults = some i → s.TakesManifests m →
    s.manCheck (manType m.toNat == 3) (manSeq m.toNat) m.toNat true = 0 → manEffect m.toNat = 0 → s.man.held.length < 1024 →
    s.manAct m.toNat (manSeq m.toNat) (rowFaults m faults) = .done s' →
    exec i s = .next (s.after (fun _ => s'.manSent (manSeq m.toNat) m.toNat))) ∧
  (∀ (s : State) (m : Entry) (faults : List LaneFault) (i : Instr), manRow m faults = some i → s.TakesManifests m →
    s.manCheck (manType m.toNat == 3) (manSeq m.toNat) m.toNat true = 0 → manType m.toNat ≠ 3 → manType m.toNat ≠ 8 →
    s.tide.now < manEffect m.toNat → s.man.held.length < 1024 →
    (manType m.toNat = 0xE → byt m.toNat 32 32 ≠ 2 ∧ s.locker.flush = none) →
    exec i s = .next (s.after (fun _ => s.manHeld { ring := false, idx := manSeq m.toNat, effect := manEffect m.toNat, entry := m }))) ∧
  ∀ (s : State) (m : Entry), s.ReadsManifest m →
    let v := m.toNat
    let st := manStep v
    -- STEP_START and STEP_CLOSE (R97 to R100, R191, R278)
    (manType v = 1 → s.ident.gen = false → s.job.phase = .ready → st = s.steps.last + 1 → (∀ b ∈ s.opt.shares, b.step + 1 ≠ st) →
      (bitOf v 416 = false → (∀ r ∈ s.steps.recs, st ≤ r.no + 1 ∧ r.no ≠ st ∧ r.state ≠ .aborting) →
        (∀ r ∈ s.refr.running, st < r.step + 2) → byt v 39 32 = s.steps.expCursor → exec (.stepStart m) s = s.acted m (s.startStep v)) ∧
      (bitOf v 416 = true → byt v 43 40 = 0 → exec (.stepClose m) s = s.acted m s.closeOpen)) ∧
    -- STEP_ABORT (R101)
    (manType v = 2 → s.ident.gen = false →
      (∀ r, s.stepRec st = some r → r.state ≠ .aborting → r.moorSent = false →
        exec (.stepAbort m) s = s.acted m ((s.requestAbort st).modStep st (fun r => { r with reason := byt v 33 32 }))) ∧
      (s.stepRec st = none → (s.steps.anyMoored = true → s.steps.moored < st) → s.wasAborted st = false →
        exec (.stepAbort m) s = s.acted m { s with steps := { s.steps with askAbort := s.steps.askAbort.set st (byt v 33 32) } })) ∧
    -- VERDICT_FAIL and VERDICT_PLACE (R141 to R143, R170)
    (manType v = 3 → verdictBad v = false → manEpoch v = s.job.epoch → byt v 39 36 = (s.job.epoch + 1) % 2 ^ 32 →
      (fld v 259 256 = 1 → exec (.verdictFail m) s = s.acted m (s.imgMoved (s.applyVerdict v))) ∧
      (fld v 259 256 = 2 → exec (.verdictPlace m) s = s.acted m (s.imgMoved (s.applyVerdict v)))) ∧
    -- JOB_START and JOB_TEARDOWN (R172 to R176, R433, R464)
    (manType v = 4 → s.job.phase = .none → s.sb.stopped = false → ¬ (1 ≤ s.crw.state ∧ s.crw.state ≤ 5) → jobStartBad v = false →
      manEpoch v = 0 → (∀ t ∈ s.job.tombs, t.tag ≠ byt v 33 32) → exec (.jobStart m) s = s.acted m (s.beginJob v)) ∧
    (manType v = 5 → byt v 119 32 = 0 → s.jobOn = true → s.job.tag = manJob v → exec (.jobTeardown m) s = s.acted m s.endJob) ∧
    -- ROLE_CHANGE (R5, R6)
    (manType v = 6 → byt v 32 32 ≤ 1 → byt v 119 33 = 0 →
      let gen := byt v 32 32 == 1
      (gen = s.ident.gen → exec (.roleChange m) s = s.acted m s) ∧
      (gen ≠ s.ident.gen → s.roleBoundary = true → s.roleBad gen = false → exec (.roleChange m) s = s.acted m (s.takeRole gen))) ∧
    -- GROUP_DEFINE and GROUP_DELETE (R217, R218)
    (manType v = 7 → s.groupBusy (fld v 267 256) = false →
      let n := fld v 305 288
      let lst := s.groupList (byt v 47 40) n
      (byt v 34 34 = 0 → exec (.groupDelete m) s = s.acted m (s.groupWrite false (s.groupAddr (fld v 267 256)) 32 0)) ∧
      (byt v 34 34 = 1 → byt v 47 40 % 128 = 0 → s.groupLines (byt v 47 40) n = true →
        s.groupBad (byt v 35 35) n (byt v 39 39) (byt v 51 48) lst = false →
        (s.groupMe n lst = none → exec (.groupDefine m) s =
          s.acted m (s.putGroup false (fld v 267 256) (byt v 35 35) n (byt v 39 39) (byt v 51 48) lst none)) ∧
        (∀ me off, s.groupMe n lst = some me → s.poolRoom (fld v 267 256) (4 * n) = some off → exec (.groupDefine m) s =
          s.acted m (s.putGroup false (fld v 267 256) (byt v 35 35) n (byt v 39 39) (byt v 51 48) lst (some (me, off)))))) ∧
    -- COLLECTIVE_LAUNCH (R53, R220 to R226)
    (manType v = 8 → manEffect v = 0 → s.man.held.length < 1024 →
      let l := Launch.ofMan v
      l.fieldsBad s.fit.nActive = none → (∀ k ∈ s.launches, k.2 ≠ l.cseq ∧ l.crosses k.1 k.2 = false) → l.cseq ∉ s.coll.ended →
      (s.coll.ended = [] ∨ l.crosses s.coll.highL s.coll.highC = false) → s.tide.now < l.ltide →
      exec (.collectiveLaunch m) s = s.acted m (s.holdLaunch v (manSeq v))) ∧
    -- OPTIMIZER_DESCRIPTOR, its delete form, and OPTIMIZER_BUCKET (R183 to R190)
    (manType v = 9 → s.ident.gen = false → (∀ b ∈ s.opt.shares, b.tag ≠ byt v 33 32 % 4096) →
      let d := Desc.ofMan v
      (d.kind = 0 → exec (.optimizerDescriptorDelete m) s =
        s.acted m { s with opt := { s.opt with descs := s.opt.descs.del (byt v 33 32 % 4096) } }) ∧
      (1 ≤ d.kind → d.kind ≤ 3 → s.descCheck (byt v 33 32 % 4096) d (bitOf (byt v 41 40) 15) = none → exec (.optimizerDescriptor m) s =
        s.acted m { s with opt := { s.opt with descs := s.opt.descs.set (byt v 33 32 % 4096) d } })) ∧
    (manType v = 0xA → s.ident.gen = false → s.bucketCheck v = none →
      ∀ faults, exec (.optimizerBucket m faults) s = s.acted m (s.takeBucket v faults)) ∧
    -- LAYER_SCHEDULE (R285 to R287) and HOLD_PREFETCH_ORDER (R324)
    (manType v = 0xB → s.ident.gen = true → ∀ sc, s.schedOf v = some sc → exec (.layerSchedule m) s = s.acted m (s.takeSched sc)) ∧
    (manType v = 0xC → ∀ o, s.orderTable v = some o → exec (.holdPrefetchOrder m) s = s.acted m (s.takeOrder o)) ∧
    -- REMOTE_READ_CACHE_INVALIDATE (R263)
    (manType v = 0xD →
      (byt v 32 32 = 1 → exec (.remoteReadCacheInvalidate m) s = s.acted m (s.rrcDrop (fun _ => true))) ∧
      (byt v 32 32 = 2 → exec (.remoteReadCacheInvalidate m) s = s.acted m (s.rrcDrop (fun x => x.dev == fld v 291 272))) ∧
      (byt v 32 32 = 3 → byt v 44 40 % 128 = 0 → 1 ≤ byt v 51 48 → byt v 51 48 ≤ 2 ^ 24 → exec (.remoteReadCacheInvalidate m) s =
        s.acted m (s.rrcDrop (fun x => x.dev == fld v 291 272 && x.win == fld v 267 264 && decide (byt v 44 40 ≤ x.off) &&
          decide (x.off < byt v 44 40 + 128 * byt v 51 48))))) ∧
    -- COLD_FLUSH_REQUEST and FLUSH_CONFIRM (R403, R404, R408, R409)
    (manType v = 0xE → byt v 32 32 = 1 → manEffect v ≠ 0 → byt v 39 34 = 0 → byt v 47 40 % 32 = 0 → s.kindOf 0 (byt v 47 40) = 0 →
      s.locker.flush = none →
      (s.hpar .lockerDev = 0xFFFFF → exec (.coldFlushRequest m) s = s.acted m (s.flushRecord (byt v 47 40) 0 3 7 0 0 (manEffect v))) ∧
      (s.hpar .lockerDev ≠ 0xFFFFF → s.steps.anyMoored = false → s.talliesBefore (manEffect v) = [] →
        exec (.coldFlushRequest m) s = s.acted m (s.flushRecord (byt v 47 40) 0 3 0 0 0 (manEffect v))) ∧
      (s.hpar .lockerDev ≠ 0xFFFFF → (s.steps.anyMoored = true ∨ s.talliesBefore (manEffect v) ≠ []) →
        exec (.coldFlushRequest m) s = s.acted m (s.flushStart (manEffect v) (byt v 47 40) true))) ∧
    (manType v = 0xE → byt v 32 32 = 2 → ∀ e, s.locker.slots.find? (fun e => e.2.step == byt v 39 34) = some e →
      exec (.flushConfirm m) s = s.acted m { s with locker := { s.locker with confirmed := some e.1 } }) ∧
    -- PARK and RESUME (R57)
    (manType v = 0xF → parkBad v = false → exec (.park m) s = s.acted m (s.parkWork v)) ∧
    (manType v = 0x10 → parkBad v = false → exec (.resume m) s = s.acted m (s.resumeWork v))

/-- Lighters and their answers, of the active job: a delta lighter goes to its stream's rules and leaves its berth once done, an
acknowledgement and an ANCHOR_DONE to the copy they name, and the four mooring-vote packets to the votes (R82 to R84, R118, R119, R171,
R308, R311). -/
def Obligations.ConvoyFramesAct : Prop :=
  ∀ (s : State) (l : Nat) (f : Frame), s.Powered →
    (s.Takes l 1 f → pktKind f = 1 → crcOk 40 (f.pkt % 2 ^ 320) = true → (s.onFrame l f).JobTraffic (LHdr.dec f.pkt).job f.src →
      exec (.parityDeltaLighter l f) s = .next (s.after (fun _ => (((s.onFrame l f).lighterJob l f (LHdr.dec f.pkt)).berthSync l).rxReturn l f))) ∧
    (s.Takes l 2 f → f.len = 32 → crcOk 32 (f.pkt % 2 ^ 256) = true → (s.onFrame l f).JobTraffic (LAck.dec f.pkt).job f.src →
      ((LAck.dec f.pkt).status ≠ 6 →
        exec (.lighterAck l f) s = .next (s.after (fun _ => ((s.onFrame l f).lighterAck l (LAck.dec f.pkt)).rxReturn l f))) ∧
      ((LAck.dec f.pkt).status = 6 →
        exec (.anchorDone l f) s = .next (s.after (fun _ => ((s.onFrame l f).lighterAck l (LAck.dec f.pkt)).rxReturn l f)))) ∧
    (s.Takes l 1 f → pktKind f = 2 →
      (frameVkind f = 1 → exec (.mooringVote l f) s = .next (s.after (fun _ => ((s.onFrame l f).voteFrame l f).rxReturn l f))) ∧
      (frameVkind f = 2 → exec (.voteRelay l f) s = .next (s.after (fun _ => ((s.onFrame l f).voteFrame l f).rxReturn l f))) ∧
      (frameVkind f = 3 → exec (.voteRelayEmpty l f) s = .next (s.after (fun _ => ((s.onFrame l f).voteFrame l f).rxReturn l f))) ∧
      (frameVkind f = 4 → exec (.joinMessage l f) s = .next (s.after (fun _ => ((s.onFrame l f).voteFrame l f).rxReturn l f))))

/-- Fence-class packets of the active job: a fence notice, a taint, a collective abort, a displacement notice (R116, R144, R145, R149, R166). -/
def Obligations.FenceFramesAct : Prop :=
  ∀ (s : State) (l : Nat) (f : Frame), s.Powered → s.Takes l 0 f → f.len = 64 → crcOk 64 (f.pkt % 2 ^ 512) = true →
    (s.onFrame l f).JobTraffic (fld f.pkt 31 16) f.src →
    (pktKind f = 1 → exec (.fenceNotice l f) s = .next (s.after (fun _ => ((s.onFrame l f).noticeIn f).rxReturn l f))) ∧
    (pktKind f = 2 → exec (.taint l f) s = .next (s.after (fun _ => ((s.onFrame l f).taintIn f.pkt).rxReturn l f))) ∧
    (pktKind f = 3 → exec (.collectiveAbort l f) s = .next (s.after (fun _ => ((s.onFrame l f).abortIn f.pkt).rxReturn l f))) ∧
    (pktKind f = 4 → exec (.displacementNotice l f) s = .next (s.after (fun _ => ((s.onFrame l f).displaceIn f).rxReturn l f)))

/-- Collective packets whose header is whole, of the active job, reach their collective (R229 to R233). -/
def Obligations.CollectiveFramesAct : Prop :=
  ∀ (s : State) (l : Nat) (f : Frame), s.Powered → crcOk 32 (f.pkt % 2 ^ 256) = true →
    (s.onFrame l f).JobTraffic (CHdr.dec f.pkt).job f.src →
    (s.Takes l 3 f →
      (pktKind f = 1 → exec (.collContribution l f) s = .next (s.after (fun _ => ((s.onFrame l f).collIn l f).rxReturn l f))) ∧
      (pktKind f = 3 → exec (.collResult l f) s = .next (s.after (fun _ => ((s.onFrame l f).collIn l f).rxReturn l f))) ∧
      (pktKind f = 4 → exec (.collBlock l f) s = .next (s.after (fun _ => ((s.onFrame l f).collIn l f).rxReturn l f)))) ∧
    (s.Takes l 4 f →
      (pktKind f = 2 → exec (.collEnd l f) s = .next (s.after (fun _ => ((s.onFrame l f).collIn l f).rxReturn l f))) ∧
      (pktKind f = 5 → exec (.collFinish l f) s = .next (s.after (fun _ => ((s.onFrame l f).collIn l f).rxReturn l f))) ∧
      (pktKind f = 6 → exec (.collStale l f) s = .next (s.after (fun _ => ((s.onFrame l f).collIn l f).rxReturn l f))))

/-- Remote requests whose packet is whole, of the active job: every item of a read or write packet, and the named item of an atomic one,
enters the intake, from which the items that may go are taken, stream by stream, past the epoch rule to their own (R247 to R249, R264, R268). -/
def Obligations.RemoteFramesAct : Prop :=
  ∀ (s : State) (l n : Nat) (f : Frame), s.Powered →
    let h := RHdr.dec f.pkt
    h.job ≠ 0 → (s.onFrame l f).JobTraffic h.job h.src →
    let each := fun (ns : List Nat) =>
      let s1 := foldS ns (fun n s => s.rmtHold l f n true) (s.onFrame l f)
      (s1.rmtRetry l (2 * (s1.lquay l).rmt.held.length)).rxReturn l f
    (s.Takes l 5 f →
      (pktKind f = 1 → rmtReqOk f 1 = true → exec (.remoteReadRequest l f) s = .next (s.after (fun _ => each (List.range h.nitem)))) ∧
      (pktKind f = 2 → rmtReqOk f 2 = true → exec (.remoteWriteRequest l f) s = .next (s.after (fun _ => each (List.range h.nitem)))) ∧
      (pktKind f = 3 → rmtReqOk f 3 = true → n < h.nitem →
        (fld (reqItem f.pkt 3 n) 43 40 = 1 → exec (.atomicAdd l f n) s = .next (s.after (fun _ => each [n]))) ∧
        (fld (reqItem f.pkt 3 n) 43 40 = 2 → exec (.atomicMin l f n) s = .next (s.after (fun _ => each [n]))) ∧
        (fld (reqItem f.pkt 3 n) 43 40 = 3 → exec (.atomicMax l f n) s = .next (s.after (fun _ => each [n]))) ∧
        (fld (reqItem f.pkt 3 n) 43 40 = 4 → exec (.atomicCas l f n) s = .next (s.after (fun _ => each [n])))))

/-- Remote answers of the active job complete the items they name (R250, R251). -/
def Obligations.RemoteAnswersAct : Prop :=
  ∀ (s : State) (l : Nat) (f : Frame), s.Powered → s.Takes l 6 f → (RHdr.dec f.pkt).job ≠ 0 →
    (s.onFrame l f).JobTraffic (RHdr.dec f.pkt).job f.src →
    (pktKind f = 9 → exec (.remoteReadReply l f) s = .next (s.after (fun _ => ((s.onFrame l f).rmtReply l 1 f).rxReturn l f))) ∧
    (pktKind f = 0xA → exec (.remoteWriteAnswer l f) s = .next (s.after (fun _ => ((s.onFrame l f).rmtReply l 2 f).rxReturn l f))) ∧
    (pktKind f = 0xB → exec (.remoteAtomicReply l f) s = .next (s.after (fun _ => ((s.onFrame l f).rmtReply l 3 f).rxReturn l f)))

/-- Refresh lighters of the active job are staged or answered (R283, R284, R288, R290), and the locker's answers reach their request (R400). -/
def Obligations.RefreshAndLockerFramesAct : Prop :=
  ∀ (s : State) (l : Nat) (f : Frame), s.Powered →
    (s.Takes l 1 f → pktKind f = 3 → refrOk f (RfHdr.dec f.pkt).rkind = true → s.isFenced f.src = false →
      (s.onFrame l f).JobTraffic (RfHdr.dec f.pkt).job (RfHdr.dec f.pkt).src →
      ((RfHdr.dec f.pkt).rkind = 1 → exec (.refreshData l f) s = .next (s.after (fun _ => ((s.onFrame l f).refrIn l f).rxReturn l f))) ∧
      ((RfHdr.dec f.pkt).rkind = 2 → exec (.refreshEnd l f) s = .next (s.after (fun _ => ((s.onFrame l f).refrIn l f).rxReturn l f))) ∧
      ((RfHdr.dec f.pkt).rkind = 3 →
        exec (.refreshResyncRequest l f) s = .next (s.after (fun _ => ((s.onFrame l f).refrAsked l f).rxReturn l f)))) ∧
    (s.Takes l 7 f →
      (pktKind f = 9 → exec (.lockerWriteAnswer l f) s = .next (s.after (fun _ => ((s.onFrame l f).lockAnswer l f true).rxReturn l f))) ∧
      (pktKind f = 0xA → exec (.lockerReadReply l f) s = .next (s.after (fun _ => ((s.onFrame l f).lockAnswer l f false).rxReturn l f))))

/-- Anchor and stream-reset messages of the active job (R91 to R93, R127), requests being of the device's own epoch (R144, log 42); one that
lists steps to restore a stripe waits until none of them is open here, and then the copies of that stripe are restored (R127, log 71). -/
def Obligations.AnchorMessagesAct : Prop :=
  ∀ (s : State) (l : Nat) (a : AnchorReq) (x : AnchorAns) (y : ResetAns), s.Powered → s.Hears l →
    (s.wake.JobTraffic a.hd.job a.hd.src → a.hd.epoch = s.wake.job.epoch →
      (a.stripe < 0xFFFFFFFF →
        (a.restore = [] → exec (.anchorRequest l a) s = .next (s.after (fun s => s.wake.answerAnchor l a))) ∧
        (a.restore ≠ [] → (∀ st ∈ a.restore, s.wake.liveStep st = false) →
          exec (.anchorRequest l a) s = .next (s.after (fun s => s.wake.restoreConvoy l a.hd.convoy a.restore (some a.stripe)))) ∧
        (∀ st ∈ a.restore, s.wake.liveStep st = true →
          exec (.anchorRequest l a) s = .next (s.after (fun s => s.wake.holdMsg l a.hd.job (.anchorReq s.ident.device a))))) ∧
      (a.stripe = 0xFFFFFFFF → exec (.streamReset l a) s = .next (s.after (fun s => s.wake.resetIn l a)))) ∧
    (s.wake.JobTraffic x.hd.job x.hd.src → exec (.anchorAnswer l x) s = .next (s.after (fun s => s.wake.anchorAnswerIn l x))) ∧
    (s.wake.JobTraffic y.hd.job y.hd.src → exec (.streamResetAnswer l y) s = .next (s.after (fun s => s.wake.resetAnswerIn l y)))

/-- Salvage messages of the active job (R153, R156, R157), requests being of the device's own epoch (R144, log 42); a standby's freeze is
held while a step is aborting or has to abort (R151, log 89), and a pass marked bad tells of the lines an audit found wrong (R350, log 60). -/
def Obligations.SalvageMessagesAct : Prop :=
  ∀ (s : State) (l : Nat) (m : SalvMsg), s.Powered → s.Hears l → s.wake.JobTraffic m.hd.job m.hd.src →
    (m.hd.epoch = s.wake.job.epoch →
      (s.wake.freezeWaits m = false → exec (.salvageFreeze l m) s = .next (s.after (fun s => s.wake.salvFreeze l m))) ∧
      (s.wake.freezeWaits m = true →
        exec (.salvageFreeze l m) s = .next (s.after (fun s => s.wake.holdMsg l m.hd.job (.freeze s.ident.device m)))) ∧
      (m.bad = false → exec (.salvagePass l m) s = .next (s.after (fun s => s.wake.helperPass l m))) ∧
      (m.bad = true → exec (.salvagePass l m) s = .next (s.after (fun s => s.wake.auditFound l m)))) ∧
    (m.chain = [] → exec (.salvageChainSum l m) s = .next (s.after (fun s => s.wake.chainIn l m))) ∧
    (m.chain ≠ [] → exec (.salvageChainSum l m) s = .next (s.after (fun s => s.wake.chainHop l m))) ∧
    exec (.frozen l m) s = .next (s.after (fun s => s.wake.frozenIn l m)) ∧
    exec (.helperLines l m) s = .next (s.after (fun s => s.wake.helperIn l m (fun s p => s.auditJudge l p)))

/-- Pieces of the job image are asked for, by a request of the device's own epoch, and arrive at logical quay 0 (R144, R169). -/
def Obligations.ImageMessagesAct : Prop :=
  ∀ (s : State) (m : ImgMsg), s.Powered → s.Hears 0 → s.wake.JobTraffic m.job m.src →
    (m.epoch = s.wake.job.epoch →
      exec (.jobImagePieceRequest m) s = .next (s.after (fun s => s.wake.imgServe m.src m.piece))) ∧
    exec (.jobImagePiece m) s = .next (s.after (fun s => s.wake.imgIn m))

/-- A request of the active job that has no layout is dropped when it carries an older epoch than the device's, and held, its credits withheld,
when it carries a newer one (R144; the drop and the hold of messages without a status are the model's reading, log 42). -/
def Obligations.RequestEpochs : Prop :=
  ∀ (s : State) (l : Nat) (a : AnchorReq) (m : SalvMsg), s.Powered → s.Hears l →
    (s.wake.JobTraffic a.hd.job a.hd.src → a.stripe < 0xFFFFFFFF →
      (a.hd.epoch < s.wake.job.epoch → exec (.anchorRequest l a) s = .next (s.after (fun s => s.wake.pktDrop l))) ∧
      (s.wake.job.epoch < a.hd.epoch →
        exec (.anchorRequest l a) s = .next (s.after (fun s => s.wake.holdMsg l a.hd.job (.anchorReq s.ident.device a))))) ∧
    (s.wake.JobTraffic m.hd.job m.hd.src →
      (m.hd.epoch < s.wake.job.epoch →
        exec (.salvageFreeze l m) s = .next (s.after (fun s => s.wake.pktDrop l)) ∧
        exec (.salvagePass l m) s = .next (s.after (fun s => s.wake.pktDrop l))) ∧
      (s.wake.job.epoch < m.hd.epoch →
        exec (.salvageFreeze l m) s = .next (s.after (fun s => s.wake.holdMsg l m.hd.job (.freeze s.ident.device m))) ∧
        exec (.salvagePass l m) s = .next (s.after (fun s => s.wake.holdMsg l m.hd.job (.pass s.ident.device m)))))

/-- A reset gives every quay its reset value, with memory, the integration and the test access ports as they were (R437, R427); the strap of
a lab part opens it and a loop broken at release sets the tamper latch (R415, R417); removal of the supply leaves Off (R426). That
memory keeps its bytes through both is the model's choice (log 51). -/
def Obligations.ResetAndSupplyAct : Prop :=
  ∀ (s : State) (strap loop : Bool),
    (∃ t, exec (.qreset strap loop) s = .next t ∧ t.quays = State.reset.quays ∧ t.ports = State.reset.ports ∧ t.job = State.reset.job ∧
      t.steps = State.reset.steps ∧ t.hcfg = State.reset.hcfg ∧ t.pwr = State.reset.pwr ∧ t.tide = State.reset.tide ∧
      t.sec.state = (if s.fit.labParts && strap then .opened else .sealed) ∧ t.sec.tamper = !loop ∧
      t.mem = s.mem ∧ t.fit = s.fit ∧ t.taps = s.taps ∧ t.pending = s.pending) ∧
    (∃ t, exec .supplyRemoved s = .next t ∧ t.pwr.off = true ∧ t.quays = State.reset.quays ∧ t.job = State.reset.job ∧
      t.mem = s.mem ∧ t.fit = s.fit ∧ t.pending = s.pending)

/-- START_UP runs the sequence of R394 once tide counts have begun, after logging what start-up owes: PWR_STATE where the supply came back
(R423, R426) and SEC_OPEN in Open (R420). A harbour in which neither holds logs nothing first. -/
def Obligations.StartUpRuns : Prop :=
  ∀ (s : State) (ch : CharterPort) (bad : List Nat), s.Powered → s.boot.phase = 1 → s.tide.started = true →
    exec (.startUp ch bad) s = .next (s.after (fun s => s.startLog.bootRun ch bad)) ∧
    (s.pwr.restored = false →
      (s.sec.state ≠ .opened → exec (.startUp ch bad) s = .next (s.after (fun s => s.bootRun ch bad))) ∧
      (s.sec.state = .opened → exec (.startUp ch bad) s = .next (s.after (fun s => (s.evH .secOpen).bootRun ch bad))))

/-- Tide counts: the first starts the harbour, whose start-up then probes the charter port, a later one not below the tide is accepted, one below it begins a backward episode that
runs as a stall; TIDE_STALL_CYC cycles without a count are a stall, and a stall that reaches TIDE_LOSS tides loses the tide
and aborts every open step with cause 6 (R37, R38, R394). -/
def Obligations.TideCountsAct : Prop :=
  ∀ (s : State) (n : Nat), s.Powered → s.pwr.state ≠ .hold →
    (s.tide.started = false →
      exec (.tideCount n) s = .next (s.after (fun s => { s with tide := { s.tide with started := true, now := n, est := n }, boot := { s.boot with phase := 1 } }))) ∧
    (s.tide.started = true → s.tide.backEp = false → s.tide.now ≤ n → exec (.tideCount n) s = .next (s.after (fun s => s.tideAccept n))) ∧
    (s.tide.started = true → s.tide.backEp = false → n < s.tide.now → s.tide.stalled = false →
      exec (.tideCount n) s = .next (s.after (fun s =>
        let s1 := { s with tide := { s.tide with backEp := true, stalled := true, est := s.tide.now } }
        s1.faultWin.evH .tideBack [(64, n), (64, s.tide.now)]))) ∧
    (s.tide.started = true → s.tide.stalled = false → s.hpar .tideStallCyc ≤ n →
      exec (.tideStall n) s = .next (s.after (fun s =>
        (State.faultWin { s.estimate n with tide := { (s.estimate n).tide with stalled := true } }).evH .tideStall))) ∧
    (s.tide.started = true → s.tide.stalled = true → s.tide.lost = false → s.hpar .tideStallCyc ≤ n →
      s.tide.now + (s.estimate n).hpar .tideLoss ≤ (s.estimate n).tide.est →
      exec (.tideLost n) s = .next (s.after (fun s =>
        (State.evH { s.estimate n with tide := { (s.estimate n).tide with lost := true } } .tideLost).abortWhere (fun _ => true) 6)))

/-- Risk grade and sideband inputs: the filtered grade waits for the scan, PRESENCE and the loop read their filtered value, PRESENCE over a
broken loop is SEC_PRESENCE_FAULT, in Hold left to the first scan after it (R425), a glitch is only counted, and what each timer or edge does runs (R178, R416, R417, R463 to R466). -/
def Obligations.SidebandRuns : Prop :=
  ∀ (s : State) (p g : Nat) (pin : SbPin), s.Powered →
    exec (.pilotGradeChange g) s = .next { s with sb := { s.sb with gradeIn := g % 8, unsettled := false } } ∧
    exec (.presenceChange false) s =
      .next { s with sec := { s.sec with presence := false }, sb := { s.sb with presSince := none, presForced := false } } ∧
    (s.sb.presForced = false → s.sec.presence = false →
      let t := { s with sec := { s.sec with presence := true }, sb := { s.sb with presSince := some s.clock } }
      exec (.presenceChange true) s =
        .next (if s.pwr.state = .hold then { t with sec := { t.sec with presLate := true } }
          else if s.sec.state = .sealed ∧ s.sec.loop = false then (t.evH .secPresenceFault).keep s else t)) ∧
    exec .sealLoopRestore s = .next { s with sec := { s.sec with loop := true, broken := false } } ∧
    (∃ t a b c d, exec (.sidebandGlitch pin) s = .next t ∧ t = { s with sb := t.sb } ∧
      t.sb = { s.sb with glPresence := a, glLoop := b, glGrade := c, glStop := d } ∧
      a = (if pin = .presence then min (s.sb.glPresence + 1) 0xFF else s.sb.glPresence) ∧
      b = (if pin = .sealLoop then min (s.sb.glLoop + 1) 0xFF else s.sb.glLoop) ∧
      c = (if pin = .pilotGrade then min (s.sb.glGrade + 1) 0xFF else s.sb.glGrade) ∧
      d = (if pin = .failStop then min (s.sb.glStop + 1) 0xFF else s.sb.glStop)) ∧
    (s.charterRead = true → exec .gradeSettleExpiry s = .next ((State.setGrade { s with sb := { s.sb with unsettled := true } } 7).keep s)) ∧
    (∀ g t, s.grade.lower = some (g, t) → s.passed t (s.hpar .gradeHold) = true → (if s.sb.unsettled then 7 else s.sb.gradeIn) = g →
      exec .gradeHoldExpiry s = .next (s.after (fun s => s.setGrade g))) ∧
    (∀ t, s.sb.presSince = some t → s.charterRead = true → s.passed t (s.hpar .presenceMax) = true → s.sec.state = .maintenance →
      exec .presenceMaxExpiry s = .next (s.after (fun s =>
        let sb := { s.sb with presSince := none, presForced := true, stuck := true }
        State.setSec { s with sec := { s.sec with presence := false }, sb := sb } .sealed 0))) ∧
    ((s.quay p).inService = true → s.sec.broken = false →
      exec (.sealLoopBreak p) s = .next (s.after (fun s =>
        let s1 := { s with sec := { s.sec with loop := s.sec.loop && !(p == s.q0), broken := true, tamper := true } }
        (if s.sec.state = .maintenance then s1.setSec .sealed 1 else s1).evH .secTamper [(2, s.sec.state.code)]))) ∧
    ((s.quay p).inService = true → s.sb.fsArmed = true → s.pwr.state = .run →
      exec (.failStopInAssert p) s = .next (s.after (fun s =>
        State.stopNow { s with sb := { s.sb with fsIn := (p == s.q0) || s.sb.fsIn, fsArmed := false } }))) ∧
    exec .failStopInRearm s =
      .next (s.after (fun s => { s with sb := { s.sb with fsIn := false, fsArmed := true, stopped := false } }))

/-- Link and credits: a link that goes down loses its credits and both sides start anew when it comes up, a position that takes no
packets keeping its own credits for later, and a returned credit lets what waits go (R425, R448, R449, R452, R453, R476); a heartbeat goes to the watching quay (R162). -/
def Obligations.LinksRun : Prop :=
  ∀ (s : State) (pos vc p cls w : Nat) (east : Bool), s.Powered →
    (s.HasPort pos →
      exec (.ppLinkDown pos) s = .next (s.after (fun s => s.modPort pos (fun p =>
        { p with peer := { p.peer with up := false, crd := [], grant := [], kept := [] } }))) ∧
      exec (.ppLinkUp pos) s = .next (s.after (fun s =>
        let start := (List.range 8).map (fun v => (v, initialCredits.getD v 0))
        let own := fun (open_ : Bool) => if s.rxOpen pos == open_ then start else []
        (s.modPort pos (fun p => { p with peer := { p.peer with up := true, crd := [], kept := own false, grant := own true } })).peerPump pos)) ∧
      ((s.port pos).peer.up = true → vc < 8 →
        exec (.ppFlitCredit pos vc) s = .next (s.after (fun s => (s.modPort pos (fun p =>
          { p with peer := { p.peer with crd := p.peer.crd.set vc (p.peer.crd.get 0 vc + 1) } })).peerPump pos)))) ∧
    (s.fitted p = true → 1 ≤ cls → cls ≤ 6 →
      let e := s.ring.get {} (p, east)
      let e' := ringDrain s.slotWeights e.txq.length { e with crd := e.crd.set cls (e.crd.get 16 cls + 1) }
      exec (.hrFlitCredit p east cls) s = .next { s with ring := s.ring.set (p, east) e' }) ∧
    ((s.quay p).inService = true → s.pwr.state ≠ .hold → (s.modQuay p (fun q => { q with hb := 0 })).watcher p = some w →
      exec (.heartbeatSend p) s = .next (((s.modQuay p (fun q => { q with hb := 0 })).ringSend p w 4 .heartbeat).keep s))

/-- Power: a keyed request waits for the next scan tide, with a privileged write answered OK; then Run is entered at once, and of Idle and Hold
one that a condition of R422 refuses is dropped with its reason, and any other parks the quays' work and enters its state as soon as every
quay's ports are quiet (R422, R423). -/
def Obligations.PowerRuns : Prop :=
  ∀ (s : State) (acc : Acc) (r : PwrSt), s.Powered → acc.priv = true →
    (s.pwr.state ≠ .hold →
      exec (.pwrReqRun acc 0x5057) s = .next (s.after (fun s => State.regOk { s with pwr := { s.pwr with pending := some .run, going := false } })) ∧
      exec (.pwrReqIdle acc 0x5057) s = .next (s.after (fun s => State.regOk { s with pwr := { s.pwr with pending := some .idle, going := false } })) ∧
      exec (.pwrReqHold acc 0x5057) s = .next (s.after (fun s => State.regOk { s with pwr := { s.pwr with pending := some .hold, going := false } }))) ∧
    (s.pwr.pending = some r → s.pwr.going = false → r ≠ s.pwr.state → (s.pwr.state = .hold ∨ .scan ∈ s.man.due) →
      (r = .run → exec .pwrState s = .next (s.after (fun s => s.pwrClear.pwrUnpark.setPwr .run))) ∧
      (r ≠ .run → ∀ n, s.pwrRefusal r = some n → exec .pwrState s = .next (s.after (fun s => s.pwrClear.pwrRefuse r n))) ∧
      (r ≠ .run → s.pwrRefusal r = none →
        exec .pwrState s = .next (s.after (fun s => State.pwrGo { s.pwrPark with pwr := { s.pwr with going := true } })))) ∧
    (s.pwr.pending = some r → s.pwr.going = true → s.pwrRefusal r = none → (∀ p ∈ s.physIn, (s.quay p).quietPorts = true) →
      exec .pwrState s = .next (s.after (fun s => s.pwrClear.setPwr r)))

/-- Warm restart and charter rewrite: H_WARM with its key asks for a restart, GO starts a rewrite and ABORT stops one, for a privileged write
in Maintenance or Open and in Run (R397, R430). -/
def Obligations.MaintenanceRuns : Prop :=
  ∀ (s : State) (acc : Acc), s.Powered → acc.priv = true → s.maint = true → s.pwr.state = .run →
    (s.job.phase = .none → s.crwBusy = false → (s.quay 0).inService = true →
      exec (.hWarm acc 0x57410001) s = .next (s.after (fun s => State.regOk { s with boot := { s.boot with warmReq := true } }))) ∧
    (s.crwBusy = false → exec (.crwGo acc 0x4352) s = .next (s.after (fun s => s.crwStart.regOk))) ∧
    (s.crwBusy = true →
      exec (.crwAbort acc 0x4352) s = .next (s.after (fun s => State.regOk { s with crw := { s.crw with stop := 8 } })))

/-- Privileged register accesses outside Hold to a block that answers: each special command does its register's own write and answers OK, and a
general write or read goes to its block's rule (R338, R367, R381, R469 to R472, R476, R489). -/
def Obligations.RegisterAccessRuns : Prop :=
  ∀ (s : State) (p off addr : Nat) (acc : Acc) (w : Word) (user clear : Bool), s.Powered → acc.priv = true →
    (s.QuayOpen p →
      exec (.qErrqPop p acc) s = .next ((s.modQuay p (fun q => { q with ev := q.ev.pop })).regOk.keep s) ∧
      (s.maint = true → fld w.toNat 19 16 ≤ 4 →
        exec (.eccFlipArm p acc w) s = .next ((s.modQuay p (fun q => { q with flip2 := w &&& 0x800F7FFF#32 })).regOk.keep s)) ∧
      (s.maint = true → (s.boot.phase = 5 ∨ s.boot.phase = 6) → (s.quay p).enabled = false →
        exec (.paramValHiWrite p acc w) s = .next ((s.modQuay p (fun q => { q with paramHi := some w })).regOk.keep s) ∧
        (∀ k, paramOfKey (s.quay p).paramKey.toNat = some k →
          let v : PVal := { val := w.toNat + ((s.quay p).paramHi.map (·.toNat)).getD (s.parWord p / 2 ^ 32) * 2 ^ 32, src := .quay }
          exec (.paramValLoWrite p acc w) s =
            .next ((s.modQuay p (fun q => { q with paramHi := none, params := q.params.set k v })).regOk.keep s))) ∧
      (s.maint = true → s.pwr.state = .run → s.job.phase = .none → (s.boot.phase = 5 ∨ s.boot.phase = 6) →
        (s.quay p).inService = true →
        ((s.quay p).enabled = false → exec (.qCtlEnable p acc 0x5143) s = .next (s.after (fun s => (s.qCtl p true).regOk))) ∧
        ((s.quay p).enabled = true → exec (.qCtlDisable p acc 0x5143) s = .next (s.after (fun s => (s.qCtl p false).regOk)))) ∧
      (qReg off = true → off < 0x4000 → off % 4 = 0 →
        exec (.registerWrite (qAddr p off) acc w) s = .next (s.after (fun s => s.qWrite p off acc w.toNat)) ∧
        exec (.registerLoRead (qAddr p off) acc) s = .next (((s.qRead p off).1.regAnswer 0 (s.qRead p off).2).keep s) ∧
        exec (.registerReadClear (qAddr p off) acc) s = .next (((s.qRead p off).1.regAnswer 0 (s.qRead p off).2).keep s))) ∧
    (s.pwr.state ≠ .hold →
      (s.snap.busy = false →
        exec (.counterSnapshotRequest acc user clear) s = .next (s.after (fun s =>
          let n := { s.snap with busy := true, user := user, clear := clear, at_ := s.tide.now + 1024 }
          State.regOk { s with snap := n }))) ∧
      exec (.hBatchOpen acc) s = .next (s.after (fun s => s.batchOpen.regAnswer 0 (s.batchOpen.refr.passVer % 2 ^ 32))) ∧
      (regBlk addr = .harbour off → hReg off = true →
        exec (.registerWrite addr acc w) s = .next (s.after (fun s => s.hWrite off acc w.toNat)) ∧
        (off ≠ 0x80 →
          exec (.registerLoRead addr acc) s = .next (((s.hRead off).1.regAnswer 0 (s.hRead off).2).keep s) ∧
          exec (.registerReadClear addr acc) s = .next (((s.hRead off).1.regAnswer 0 (s.hRead off).2).keep s))))

/-- The EVT interrupt is raised once EVT_IRQ_CNT records are unread or one has waited EVT_IRQ_T on the duration clock (R36, R373). -/
def Obligations.EvtInterruptRuns : Prop :=
  ∀ s : State, s.Powered →
    (s.ev.unread.length ≥ max (s.hpar .evtIrqCnt) 1 ∨ ∃ e ∈ s.ev.unread, s.passed e.2 (s.hpar .evtIrqT) = true) →
    exec .evtIrqExpiry s = .next ((s.setIrq 1).keep s)

/-- Test access: an instruction permitted in the state is selected and does its own work, and touches nothing of the block but that port
(R427, R428). DBG_REG does one register access, DBG_MEM_ADDR starts one line read. -/
def Obligations.TestAccessRuns : Prop :=
  ∀ (s : State) (p : Nat) (pins x : BitVec 32) (dr : BitVec 64) (da : BitVec 48), s.Powered → s.fitted p = true →
    let sel := fun (i : TapIr) => { s.tap p with ir := i.code, dr := 0, drive := i == .extest || i == .clamp, hiz := i == .highz }
    let t := s.tap p
    exec (.bypass p) s = .next (s.setTap p (sel .bypass)) ∧
    exec (.idcode p) s = .next ((s.setTap p (sel .idcode)).setTap p { sel .idcode with dr := s.idcodeWord }) ∧
    exec (.tapReset p) s = .next (s.setTap p { t with ir := 0x01, drive := false, hiz := false, dr := 0 }) ∧
    (s.tapMay .sample = true → exec (.samplePreload p pins x) s =
      .next ((s.setTap p (sel .sample)).setTap p { sel .sample with bsr := s.capture p pins, latch := x })) ∧
    (s.tapMay .extest = true →
      exec (.extest p pins x) s = .next ((s.setTap p (sel .extest)).setTap p { sel .extest with bsr := pins, latch := x }) ∧
      exec (.clamp p) s = .next (s.setTap p (sel .clamp)) ∧
      exec (.highz p) s = .next (s.setTap p (sel .highz))) ∧
    (s.tapMay .dbgReg = true → ∃ t, exec (.dbgReg p dr) s = .next t ∧ t = s.after (fun s => s.tapReg p dr) ∧
      (s.tapReg p dr).regOut = s.regOut) ∧
    (s.tapMay .dbgData = true →
      exec (.dbgMemAddr p da) s = .next (s.after (fun s => s.tapAddr p da)) ∧
      (let v := pack [(1024, t.memLine.toNat), (32, t.memCrc), (1, b2n t.memPoison), (1, b2n t.memValid), (2, t.memStatus)]
       exec (.dbgMemData p) s = .next ((s.setTap p (sel .dbgData)).setTap p { sel .dbgData with dr := v })))

/-! ## Ports and registers: what stops, and what is refused -/

/-- A command at a port position the integration does not have stops: no such port carries it (R434). -/
def Obligations.AbsentPortStops : Prop :=
  ∀ (s : State) (l n : Nat) (r : CpReq) (f : Frame) (d : Line) (a : AnchorReq) (m : SalvMsg), s.fit.nActive ≤ l → r.pos = l →
    exec (.cpRead r) s = .fault .noSuchPort ∧ exec (.cpWrite r) s = .fault .noSuchPort ∧
    exec (.cpRemoteRead r) s = .fault .noSuchPort ∧ exec (.cpRemoteWrite r) s = .fault .noSuchPort ∧
    exec (.cpRemoteAtomic r) s = .fault .noSuchPort ∧ exec (.mcReadData l n d 0) s = .fault .noSuchPort ∧
    exec (.mcWriteAck l n 0) s = .fault .noSuchPort ∧ exec (.mcTimeout l) s = .fault .noSuchPort ∧
    exec (.ppLinkDown l) s = .fault .noSuchPort ∧ exec (.ppFlitCredit l n) s = .fault .noSuchPort ∧
    exec (.parityDeltaLighter l f) s = .fault .noSuchPort ∧ exec (.fenceNotice l f) s = .fault .noSuchPort ∧
    exec (.collContribution l f) s = .fault .noSuchPort ∧ exec (.remoteReadRequest l f) s = .fault .noSuchPort ∧
    exec (.refreshData l f) s = .fault .noSuchPort ∧ exec (.lockerReadReply l f) s = .fault .noSuchPort ∧
    exec (.anchorRequest l a) s = .fault .noSuchPort ∧ exec (.salvageFreeze l m) s = .fault .noSuchPort

/-- An access to an offset of a block at which no register stands is answered OK: a read returns 0 and changes nothing but the answer, a
write changes nothing but the answer (R469). -/
def Obligations.NoRegisterThere : Prop :=
  ∀ (s : State) (addr p off : Nat) (acc : Acc) (w : Word), s.Powered → s.pwr.state ≠ .hold →
    ((regBlk addr = .harbour off ∧ hReg off = false) ∨
      (regBlk addr = .quay p off ∧ qReg off = false ∧ s.fitted p = true ∧ (s.quay p).failed = false)) →
    let ok : RegRsp := { resp := 0, rdata := 0 }
    exec (.registerLoRead addr acc) s = .next { s with regOut := some ok } ∧
    exec (.registerReadClear addr acc) s = .next { s with regOut := some ok } ∧
    exec (.registerWrite addr acc w) s = .next (s.after (fun s => { s with regOut := some ok })) ∧
    (s.AtRest → exec (.registerWrite addr acc w) s = .next { s with regOut := some ok })

/-- An unprivileged master writes nothing: each of its writes is refused, counted and logged on the quay that serves it (R471). -/
def Obligations.UserWritesRefused : Prop :=
  ∀ (s : State) (addr p off : Nat) (acc : Acc) (w : Word), s.Powered → s.pwr.state ≠ .hold → acc.priv = false →
    (regBlk addr = .harbour off → hReg off = true →
      exec (.registerWrite addr acc w) s = .next (s.after (fun s => s.regRefuse s.q0 off acc)) ∧
      (s.regRefuse s.q0 off acc).regOut = some { resp := 1, rdata := 0 }) ∧
    (regBlk addr = .quay p off → qReg off = true → s.fitted p = true → (s.quay p).failed = false →
      exec (.registerWrite addr acc w) s = .next (s.after (fun s => s.regRefuse p off acc)))

/-- In Hold only H_VERSION, H_SEC_STAT and H_PWR_STAT read and only H_PWR_CTL takes writes: any other access changes nothing but the
answer, and the tide counts given to the block are not taken (R425, R429). -/
def Obligations.HoldAnswers : Prop :=
  ∀ (s : State) (addr off n : Nat) (acc : Acc) (w : Word), s.Powered → s.pwr.state = .hold →
    (regBlk addr = .harbour off → off ∉ [0x00, 0x48, 0x50] → off ≠ 0x80 →
      exec (.registerLoRead addr acc) s = .next { s with regOut := some { resp := 1, rdata := 0 } }) ∧
    (regBlk addr = .harbour off → off ≠ 0x4C →
      exec (.registerWrite addr acc w) s = .next (s.after (fun s => { s with regOut := some { resp := 1, rdata := 0 } }))) ∧
    exec (.tideCount n) s = .next (s.after id)

/-- A privileged configuration write of the harbour common block passes the checks of R474 in order: outside Maintenance and Open, or before
start-up has ended, it is refused; with a quay in service enabled it changes no configuration word and sets CFG_IGN of each
enabled one; else it takes effect in its own word and in no other. -/
def Obligations.ConfigurationWrites : Prop :=
  ∀ (s : State) (addr off : Nat) (acc : Acc) (w : Word), s.pwr.state ≠ .hold → acc.priv = true → regBlk addr = .harbour off →
    hConf off = true →
    let t := s.regWrite addr acc w.toNat
    (s.maint = false ∨ (s.boot.phase ≠ 5 ∧ s.boot.phase ≠ 6) → t = s.regRefuse s.q0 off acc) ∧
    (s.maint = true → (s.boot.phase = 5 ∨ s.boot.phase = 6) →
      t.regOut = some { resp := 0, rdata := 0 } ∧
      ((∃ p ∈ s.physIn, (s.quay p).enabled = true) →
        t.hcfg = s.hcfg ∧ ∀ p ∈ s.physIn, (s.quay p).enabled = true → (t.quay p).cfgIgn = true) ∧
      ((∀ p ∈ s.physIn, (s.quay p).enabled = false) →
        t.hw off = (if hMask off = 0 then s.hw off else w.toNat &&& hMask off) ∧ (∀ o, o ≠ off → t.hw o = s.hw o) ∧
        t.quays = s.quays ∧ t.mem = s.mem ∧ t.ev = s.ev))

/-- A privileged read leaves everything as it was but the latch of a pair, the glitch counts that H_SB_GLITCH clears, and the answer; only
H_BATCH_OPEN does more (R470, R472). -/
def Obligations.RegisterReadFrame : Prop :=
  ∀ (s t : State) (addr p off : Nat) (acc : Acc), acc.priv = true → t = s.regRead addr acc →
    (regBlk addr = .harbour off → off ≠ 0x80 →
      t = { s with hLatch := t.hLatch, sb := t.sb, regOut := t.regOut } ∧ (off ≠ 0x70 → t.sb = s.sb)) ∧
    (regBlk addr = .quay p off → s.fitted p = true → (s.quay p).failed = false →
      t = { s with quays := t.quays, regOut := t.regOut } ∧
      ∀ n, t.quay n = { s.quay n with latch := (t.quay n).latch } ∧ (n ≠ p → t.quay n = s.quay n))

/-! ## Tide and manifests -/

/-- A periodic class of exponent p and phase φ falls due in a span of tides exactly when a tide t of the span has t mod 2^p = φ (R40). -/
def Obligations.PeriodicDue : Prop :=
  ∀ p φ a b : Nat, φ < 2 ^ p → (falls p φ a b = true ↔ ∃ t, a < t ∧ t ≤ b ∧ t % 2 ^ p = φ)

/-- The current tide is the highest count accepted and never decreases; outside Run and Idle it stands (R35, R38, R425). -/
def Obligations.TideNeverFalls : Prop :=
  ∀ (s : State) (n : Nat), s.Powered →
    (s.pwr.state = .hold → s.tideCount n = s) ∧
    (s.pwr.state ≠ .hold → s.tide.started = true → (s.tideCount n).tide.now = max s.tide.now n) ∧
    (s.pwr.state ≠ .hold → s.tide.started = false → (s.tideCount n).tide.now = n ∧ (s.tideCount n).tide.started = true)

/-- A manifest given to a READY harbour that fails a check of R51 past MCRC and SEQ is rejected with that check's number: REJECTED of its ring
grows by one and FORMAT_ERROR is logged; a manifest given by itself stands at its own SEQ, which is the model's choice (log 41). -/
def Obligations.ManifestsRejected : Prop :=
  ∀ (s : State) (m : Entry) (faults : List LaneFault) (i : Instr) (c : Nat), manRow m faults = some i → s.TakesManifests m →
    s.manCheck (manType m.toNat == 3) (manSeq m.toNat) m.toNat true = c → 3 ≤ c →
    exec i s = .next (s.after (fun s => s.manFail (manType m.toNat == 3) (manSeq m.toNat) c))

/-! ## Events, alarms and counters -/

/-- An event of severity ALARM sets its bit of H_ALARM_CAUSE whatever becomes of its record, no event clears a bit, and a write of 1
clears a bit unless its condition is live (R370). -/
def Obligations.AlarmCause : Prop :=
  ∀ (s : State) (p : Nat) (e : Evt) (args : List (Nat × Nat)) (acc : Acc) (w : Word),
    (∀ b, e.sev = 3 → e.alarmBit = some b → (s.evQ p e args).ev.alarm.getLsbD b = true) ∧
    (∀ b, s.ev.alarm.getLsbD b = true → (s.evQ p e args).ev.alarm.getLsbD b = true) ∧
    (s.pwr.state ≠ .hold → acc.priv = true → ∀ b,
      (s.regWrite 0x54 acc w.toNat).ev.alarm.getLsbD b = (s.ev.alarm.getLsbD b && !(w.getLsbD b && !s.alarmLive.getLsbD b)))

/-- The error queue: 64 entries at most; below 60 a record takes an entry of its own, and from 60 on OVF is set and the first 60 entries stay
as they are; no event is lost without a count while the counts do not saturate; POP removes the head (R367). -/
def Obligations.ErrorQueue : Prop :=
  ∀ (q : QEv) (r : EvRec) (codes : List Nat), q.errq.length ≤ 64 →
    (q.push r codes).errq.length ≤ 64 ∧
    (q.errq.length < 60 → (q.push r codes).errq = q.errq ++ [r] ∧ (q.push r codes).errqOvf = q.errqOvf) ∧
    (60 ≤ q.errq.length → (q.push r codes).errqOvf = true ∧ (q.push r codes).errq.take 60 = q.errq.take 60) ∧
    (q.total + r.count < 2 ^ 32 → (q.push r codes).total = q.total + r.count) ∧
    q.pop.errq = q.errq.drop 1

/-- The 32 counters: a fixed event moves its own counter and every selectable one whose filters it passes, each modulo 2^48 with its bit of
Q_CNT_WRAP set when it wraps, and no other counter or bit moves (R378, R380). -/
def Obligations.CountersCount : Prop :=
  ∀ (c : Cnt) (ev k i : Nat) (a : CntAttr), k < 2 ^ 48 → i < 32 → c.live.get 0 i < 2 ^ 48 →
    let hit : Bool := if i < 16 then i == ev else c.passes (i - 16) ev a
    let t := c.tally ev k a
    t.live.get 0 i = (if hit then (c.live.get 0 i + k) % 2 ^ 48 else c.live.get 0 i) ∧
    t.wrap.getLsbD i = (c.wrap.getLsbD i || (hit && decide (2 ^ 48 ≤ c.live.get 0 i + k))) ∧
    t.hold = c.hold ∧ t.sel = c.sel ∧ t.irqEn = c.irqEn

/-- The snapshot at T_s copies the live counters of every quay in service into its holding registers, clears them with CLEAR, leaves those of
every other quay, and raises CNT, once the image is written where CNT_BASE asks for one; before T_s, and while an image is on its way, it does
nothing (R381, R382). The integration is one R16 and R17 allow, which every step keeps. -/
def Obligations.SnapshotCopies : Prop :=
  ∀ s : State, s.fit.ok = true → s.snap.busy = true →
    (s.tide.now < s.snap.at_ ∨ s.snap.writing = true → s.snapshot = s) ∧
    (s.snap.at_ ≤ s.tide.now → s.snap.writing = false →
      let t := s.snapshot
      (∀ p ∈ s.physIn, (t.quay p).cnt.hold = (s.quay p).cnt.live ∧ (t.quay p).cnt.holdWrap = (s.quay p).cnt.wrap ∧
        (t.quay p).cnt.live = (if s.snap.clear then [] else (s.quay p).cnt.live)) ∧
      (∀ p, p ∉ s.physIn → (t.quay p).cnt = (s.quay p).cnt) ∧
      t.snap.stide = s.snap.at_ ∧ (s.hpar .cntBase = 0 → t.snap.busy = false) ∧
      (t.snap.busy = false → t.ev.irqStat.getLsbD 3 = true) ∧
      (t.snap.busy = true → t.snap.writing = true ∧ ∃ c ∈ (t.lquay 0).mc, lineOf (t.hpar .cntBase) ≤ c.addr ∧ c.addr < t.hpar .cntBase + 5248)) ∧
    (s.snap.writing = true → s.snapOut = false → s.snapGo.snap.busy = false ∧ s.snapGo.ev.irqStat.getLsbD 3 = true)

/-! ## Berths -/

/-- The checks of an access through a berth's handle: none fails exactly when the pool exists, the index and the bytes reached lie in it, offset
and length are multiples of 16 B, the berth is live with the handle's GEN, and the unit's class is its owner; a release also needs COUNT
above 0, and a share keeps COUNT at 255 or below. Work whose every handle passes shares and releases with nothing changed, and goes on after an
access where every line its berths hold in the memory tier is readable and keeps its check value (R328) and no word of its SRAM berths waits
with a flipped bit (R336), memory as it was; work with a handle that fails, or at an access with such a line, does not (R311, R312). -/
def Obligations.BerthChecks : Prop :=
  (∀ (b : Pools) (n : Nat → Bool → Nat) (o : Owner) (h off len k : Nat),
    let pool := fld h 2 0
    let here := fun (x : Berth) => b.live.find? (fun x => x.pool == pool && x.mem == bitOf h 3 && x.idx == fld h 23 4) = some x ∧
      x.gen = fld h 31 24 ∧ x.owner = o
    (b.refusal n o h (.access off len) = none ↔
      pool ≤ 5 ∧ fld h 23 4 < n pool (bitOf h 3) ∧ off + len ≤ berthSize pool ∧ off % 16 = 0 ∧ len % 16 = 0 ∧ ∃ x, here x) ∧
    (b.refusal n o h .release = none ↔ pool ≤ 5 ∧ fld h 23 4 < n pool (bitOf h 3) ∧ ∃ x, here x ∧ 0 < x.count) ∧
    (b.refusal n o h (.share k) = none ↔ pool ≤ 5 ∧ fld h 23 4 < n pool (bitOf h 3) ∧ ∃ x, here x ∧ x.count + k ≤ 255)) ∧
  ∀ (s : State) (l work : Nat) (o : Owner) (op : BerthOp),
    let b := (s.lquay l).pools
    let ok := ∀ h, (o, work, h) ∈ b.handles → b.refusal (fun p m => s.lpar l (if m then .berthMem p else .berthSram p)) o h op = none
    let sound := ∀ x ∈ b.live, x.owner = o → x.work = work → x.mem = true → ∀ i < x.crcs.length,
      s.lineOk l (s.berthAddr l x.pool x.idx + 128 * i) = true ∧
      lineCrc (s.readLine l (s.berthAddr l x.pool x.idx + 128 * i)) = s.readB l (s.berthAddr l x.pool x.idx + berthSize x.pool + 4 * i) 4
    let reads := ∃ off len, op = .access off len
    (¬ ok → (s.berthUse l o work op).2 = false) ∧
    (ok → ¬ reads → s.berthUse l o work op = (s, true)) ∧
    (ok → reads → ¬ sound → (s.berthUse l o work op).2 = false) ∧
    (ok → reads → sound → (s.lquay l).glitch.contains 8 = false → (∀ f ∈ (s.lquay l).flips, f.1 ≠ 0) →
      (s.berthUse l o work op).2 = true ∧ (s.berthUse l o work op).1.mem = s.mem)

/-! ## Memory behind the channel ports -/

/-- The address of a byte is in the region entry that holds it, and an address in no valid entry is plain (R24). -/
def Obligations.RegionLookup : Prop :=
  ∀ (q : Quay) (addr : Nat),
    (∀ r, q.regionOf addr = some r →
      r = q.region r.idx ∧ r.idx < 256 ∧ r.valid = true ∧ r.base * 4096 ≤ addr ∧ addr < (r.base + r.size) * 4096) ∧
    (∀ e, e < 256 → (q.region e).valid = true → (q.region e).base * 4096 ≤ addr →
      addr < ((q.region e).base + (q.region e).size) * 4096 → (q.regionOf addr).isSome = true) ∧
    ∀ (s : State) (l : Nat), s.lquay l = q → q.regionOf addr = none → s.kindOf l addr = 0

/-- Bytes written to memory read back, little-endian, and every other byte reads as before. -/
def Obligations.MemoryReadsBack : Prop :=
  ∀ (m : List Host.Cell) (k n v a : Nat), Memory.wf m →
    Memory.wf (Memory.write m k n v) ∧ Memory.read (Memory.write m k n v) k n = v % 2 ^ (8 * n) ∧
    (a < k ∨ k + n ≤ a → Memory.read (Memory.write m k n v) a 1 = Memory.read m a 1)

/-- A channel write changes the enabled bytes of its line and no other byte of any port position; a poisoned write marks the line, and only a
whole write without poison clears the mark (R443). -/
def Obligations.ChannelWriteBytes : Prop :=
  ∀ (s : State) (l l' a x : Nat) (d : McData), Memory.wf s.mem → a % 128 = 0 → a < 2 ^ 40 → x < 2 ^ 40 →
    (s.applyWrite l a d).readB l x 1 =
      (if a ≤ x ∧ x < a + 128 ∧ d.mask.getLsbD (x - a) = true then byt d.data.toNat (x - a) (x - a) else s.readB l x 1) ∧
    (l' ≠ l → (s.applyWrite l a d).readB l' x 1 = s.readB l' x 1) ∧
    (s.applyWrite l a d).isPoisoned l a = (d.poison || (decide (d.mask ≠ fullMask) && s.isPoisoned l a)) ∧
    (l' ≠ l ∨ lineOf x ≠ a → (s.applyWrite l a d).isPoisoned l' x = s.isPoisoned l' x)

/-- A port position never has a read and a write, or two writes, unanswered to one line: commands that have been sent do not conflict,
and sending what may be sent keeps it so, whatever reads and writes join the queue (R444). -/
def Obligations.ChannelConflictFree : Prop :=
  (∀ mc, McOrdered mc → (mcSent mc).Pairwise (fun a b => a.conflicts b = false)) ∧
  (∀ (now : Nat) (q : Quay) (es : List McCmd), McOrdered q.mc → (∀ e ∈ es, e.tag = none) →
    McOrdered (Quay.mcPump now { q with mc := q.mc ++ es }).mc) ∧
  ∀ (s : State) (l p addr : Nat) (mask : BitVec 128) (d : Line) (poison : Bool) (u : McUse), McOrdered (s.quay p).mc →
    McOrdered ((s.issueRead l addr u).quay p).mc ∧ McOrdered ((s.issueWrite l addr mask d poison u).quay p).mc

/-- The integer atomics: OLD is the operand's place in the line, the place takes the sum, minimum, maximum or exchange of its TYPE, and no other
byte of the line changes (R264). -/
def Obligations.AtomicsCompute : Prop :=
  ∀ (op type operand compare addr : Nat) (noret : Bool) (old : Line), atomOk op type noret = true → type ≠ 5 →
    addr % atomBytes type = 0 →
    let n := atomBytes type
    let b := addr % 128
    let r := atomLine op type operand compare addr old
    let x := operand % 2 ^ (8 * n)
    r.2 = byt old.toNat (b + n - 1) b ∧
    (∀ i, i < 128 → (i < b ∨ b + n ≤ i) → byt r.1.toNat i i = byt old.toNat i i) ∧
    byt r.1.toNat (b + n - 1) b =
      (if op = 1 then (r.2 + x) % 2 ^ (8 * n)
       else if op = 4 then (if r.2 = compare % 2 ^ 64 then x else r.2)
       else if type = 1 ∨ type = 3 then
         unsigned (8 * n) (if op = 2 then min (signed (8 * n) r.2) (signed (8 * n) x) else max (signed (8 * n) r.2) (signed (8 * n) x))
       else if op = 2 then min r.2 x else max r.2 x)

/-! ## Codes -/

/-- The coder's field: multiplication is polynomial multiplication modulo 0x11D, addition XOR, the inverse a^254; a scaled line scales each
byte, so scaling goes through XOR and a delta applied twice cancels (R71). -/
def Obligations.CoderField : Prop :=
  (∀ a b : Nat, a < 256 → b < 256 → gfMul a b = polyMod (polyMul a b)) ∧
  (∀ a b c : Nat, a < 256 → b < 256 → c < 256 → gfMul a (b ^^^ c) = gfMul a b ^^^ gfMul a c) ∧
  (∀ a : Nat, a < 256 → a ≠ 0 → gfMul a (gfInv a) = 1 ∧ gfInv a = gfPow a 254) ∧
  (∀ (c i : Nat) (l : Line), c < 256 → i < 128 → byt (gfScale c l).toNat i i = gfMul c (byt l.toNat i i)) ∧
  ∀ (c : Nat) (l m : Line), c < 256 → gfScale c (l ^^^ m) = gfScale c l ^^^ gfScale c m

/-- Every delta decompresses to itself, in no more than the 128 B of the raw form (R78, R79). -/
def Obligations.CompressionRoundTrip : Prop :=
  ∀ d : Line, decompress (compress d) = some d ∧ (compress d).plen ≤ 128 ∧ (compress d).pay < 2 ^ (8 * (compress d).plen)

/-- A lighter's body decodes to the lines it was made of, in ascending order (R77, R80). -/
def Obligations.LighterBodyRoundTrip : Prop :=
  ∀ ls : List LLine, (ls.map (·.l)).Nodup → (∀ x ∈ ls, x.l < 32) →
    decBody (lineMask ls) (encBody ls).1 = some ((sortLines ls).map (fun x => (x.l, x.delta)))

/-- Lighter headers and acknowledgements decode to what was encoded, every field at every value of its width, and carry their check value
(R76, R83). -/
def Obligations.LighterHeaderRoundTrip : Prop :=
  (∀ h : LHdr, h.Fits → LHdr.dec h.enc = h ∧ crcOk 40 h.enc = true ∧ h.enc < 2 ^ 320) ∧
  ∀ a : LAck, a.Fits → LAck.dec a.enc = a ∧ crcOk 32 a.enc = true ∧ a.enc < 2 ^ 256

/-- Collective, remote-memory and refresh headers decode to what was encoded, every field at every value of its width, and carry their
check value (R228, R249, R280). -/
def Obligations.PacketHeaderRoundTrip : Prop :=
  (∀ h : CHdr, h.Fits → CHdr.dec h.enc = h ∧ crcOk 32 h.enc = true) ∧
  (∀ h : RHdr, h.Fits → RHdr.dec h.enc = h ∧ crcOk 48 h.enc = true) ∧
  ∀ h : RfHdr, h.Fits → RfHdr.dec h.enc = h ∧ crcOk 48 h.enc = true

/-- The accumulators of a tally do not depend on the order contributions arrive in, and so neither does the element they finish to (R234,
R235). -/
def Obligations.TallyOrder : Prop :=
  ∀ (cs ds : List Cell) (e : Int) (f : EFmt), cs.Perm ds →
    (cs.foldl Cell.add {}).finish e f = (ds.foldl Cell.add {}).finish e f ∧ cs.foldl Cell.add {} = ds.foldl Cell.add {}
end

