-- ==== Sys2Proof/Laws/Command.lean ====
section
/-! SUPPORT. What the command wrappers of Settle.lean can answer: the lemmas a proof about `exec` cites instead of unfolding them. -/

namespace Sys2Proof.Laws

open Sys2Proof Sys2Proof.Machine

theorem command_powered {s : State} (h : s.Powered) (k : State → State) : s.command k = .next (s.after k) := by
  unfold State.Powered at h
  simp [State.command, h]

theorem command_off {s : State} (h : s.pwr.off = true) (k : State → State) : s.command k = .next s := by simp [State.command, h]

theorem aside_powered {s : State} (h : s.Powered) (k : State → State) : s.aside k = .next ((k s).keep s) := by
  unfold State.Powered at h
  simp [State.aside, h]

theorem aside_off {s : State} (h : s.pwr.off = true) (k : State → State) : s.aside k = .next s := by simp [State.aside, h]

theorem atPort_powered {s : State} {l : Nat} (h : s.Powered) (hl : s.HasPort l) (k : State → State) :
    s.atPort l k = .next (s.after k) := by
  unfold State.HasPort at hl
  simp [State.atPort, Nat.not_le.mpr hl, command_powered h]

theorem atPort_absent {s : State} {l : Nat} (hl : ¬ s.HasPort l) (k : State → State) : s.atPort l k = .fault .noSuchPort := by
  unfold State.HasPort at hl
  simp [State.atPort, Nat.le_of_not_lt hl]

theorem cpCommand_powered {s : State} {op : Nat} {r : CpReq} (h : s.Powered) (hl : s.HasPort r.pos) (hn : r.lane < 4) :
    s.cpCommand op r = .next (s.after (fun s => s.cpTake op r)) := by
  unfold State.HasPort at hl
  simp [State.cpCommand, Nat.not_le.mpr hl, Nat.not_le.mpr hn, command_powered h]

theorem arrival_powered {s t : State} (h : s.Powered) : s.arrival (.next t) = .next (s.after (fun _ => t)) := by
  unfold State.Powered at h
  simp [State.arrival, h]

/-- A frame that passes the checks of its port, given by its own row. -/
theorem frameIn_takes {s : State} {l vc : Nat} {f : Frame} {row : Bool} (h : s.Takes l vc f) (hr : row = true) (k : State → State) :
    s.frameIn l vc f row k = .next ((k (s.onFrame l f)).rxReturn l f) := by
  obtain ⟨hl, hx, ho, hf⟩ := h
  unfold State.HasPort at hl
  unfold State.frameIn State.recv State.onFrame
  rw [if_neg (Nat.not_le.mpr hl), hx, ho, hr, Bool.true_and, hf]
  rfl

/-- A message at a position that takes it. -/
theorem msgIn_hears {s : State} {l : Nat} (h : s.Hears l) (t : Tx) : s.msgIn l t = .next (s.wake.msgAct l t) := by
  obtain ⟨hl, hx, ho⟩ := h
  unfold State.HasPort at hl
  simp [State.msgIn, State.recvMsg, Nat.not_le.mpr hl, hx, ho]

theorem gate_active {s : State} {l job src : Nat} {hold k : State → State} (h : s.JobTraffic job src) :
    s.gate l job src hold k = k s := by
  obtain ⟨h1, h2, h3⟩ := h
  simp [State.gate, h1, h2, h3]

theorem jobPkt_active {s : State} {l job src : Nat} {f : Frame} {k : State → State} (h : s.JobTraffic job src) :
    s.jobPkt l job src f k = k s := gate_active h

theorem jobMsg_active {s : State} {l job src : Nat} {t : Tx} {k : State → State} (h : s.JobTraffic job src) :
    s.jobMsg l job src t k = k s := gate_active h

/-- An answer without a layout never waits for an epoch or an abort. -/
theorem msgWaits_answer {s : State} {t : Tx} (ht : t.askEpoch = none) : s.msgWaits t = false := by
  cases t <;> first | rfl | cases ht

/-- An answer without a layout past its job gate is taken whatever its epoch. -/
theorem askIn_answer {s : State} {l job src : Nat} {t : Tx} {k : State → State} (h : s.JobTraffic job src) (ht : t.askEpoch = none) :
    s.askIn l job src t k = k s := by
  unfold State.askIn
  rw [jobMsg_active h, msgWaits_answer ht, ht]
  rfl

/-- A request without a layout past its job gate is taken at its own epoch, where it has not to wait for an abort. -/
theorem askIn_now {s : State} {l job src : Nat} {t : Tx} {k : State → State} (h : s.JobTraffic job src)
    (ht : t.askEpoch = some s.job.epoch) (hw : s.msgWaits t = false) : s.askIn l job src t k = k s := by
  unfold State.askIn
  rw [jobMsg_active h, hw, ht]
  simp

theorem dueCommand_head {s : State} {e : DueEv} {rest : List DueEv} (h : s.Powered) (hd : s.DueHead e rest) (k : State → State) :
    s.dueCommand e k = .next (s.after (fun s => k (s.withDue rest))) := by
  obtain ⟨h1, h2⟩ := hd
  have ht : s.takeDue e = some (s.withDue rest) := by simp [State.takeDue, h1, h2, State.withDue]
  simp [State.dueCommand, command_powered h, State.after, ht]

/-- At rest nothing goes on by itself. -/
theorem settle_rest {s : State} (h : s.AtRest) : s.settle = s := by simp [State.settle, h.1]

/-- At rest the flip masks have nothing to look at. -/
theorem flipMasks_rest {s : State} (h : s.AtRest) (old : State) : s.flipMasks old = s := by
  have : s.physAll.filter (fun p => (s.quay p).flip2.getLsbD 31 || !(s.quay p).flips.isEmpty) = [] := by
    apply List.filter_eq_nil_iff.mpr
    intro p hp
    have := h.2 p hp
    rw [this.1, this.2]
    decide
  unfold State.flipMasks
  rw [this]
  rfl

/-- An effect that leaves nothing under way is all a command does. -/
theorem after_rest {s : State} {k : State → State} (h : (k s).AtRest) : s.after k = (k s).keep s := by
  simp [State.after, settle_rest h, flipMasks_rest h]

@[simp] theorem keep_pending (t s : State) : (t.keep s).pending = s.pending := rfl
@[simp] theorem keep_fit (t s : State) : (t.keep s).fit = s.fit := rfl
@[simp] theorem keep_mem (t s : State) : (t.keep s).mem = t.mem := rfl
@[simp] theorem keep_self (s : State) : s.keep s = s := rfl
@[simp] theorem after_pending (s : State) (k : State → State) : (s.after k).pending = s.pending := by
  simp only [State.after, keep_pending]
@[simp] theorem after_fit (s : State) (k : State → State) : (s.after k).fit = s.fit := by
  simp only [State.after, keep_fit]

end Sys2Proof.Laws
end

