-- ==== Sys2Proof/Laws/State.lean ====
section
/-! SUPPORT. What each named update of the state leaves as it is: one lemma per field per update. -/

namespace Sys2Proof.Laws

open Sys2Proof Sys2Proof.Machine

/-! ## modQuay -/

@[simp] theorem modQuay_fit (s : State) (p : Nat) (f : Quay → Quay) : (s.modQuay p f).fit = s.fit := rfl
@[simp] theorem modQuay_hcfg (s : State) (p : Nat) (f : Quay → Quay) : (s.modQuay p f).hcfg = s.hcfg := rfl
@[simp] theorem modQuay_hLatch (s : State) (p : Nat) (f : Quay → Quay) : (s.modQuay p f).hLatch = s.hLatch := rfl
@[simp] theorem modQuay_ports (s : State) (p : Nat) (f : Quay → Quay) : (s.modQuay p f).ports = s.ports := rfl
@[simp] theorem modQuay_tide (s : State) (p : Nat) (f : Quay → Quay) : (s.modQuay p f).tide = s.tide := rfl
@[simp] theorem modQuay_man (s : State) (p : Nat) (f : Quay → Quay) : (s.modQuay p f).man = s.man := rfl
@[simp] theorem modQuay_boot (s : State) (p : Nat) (f : Quay → Quay) : (s.modQuay p f).boot = s.boot := rfl
@[simp] theorem modQuay_ident (s : State) (p : Nat) (f : Quay → Quay) : (s.modQuay p f).ident = s.ident := rfl
@[simp] theorem modQuay_sec (s : State) (p : Nat) (f : Quay → Quay) : (s.modQuay p f).sec = s.sec := rfl
@[simp] theorem modQuay_pwr (s : State) (p : Nat) (f : Quay → Quay) : (s.modQuay p f).pwr = s.pwr := rfl
@[simp] theorem modQuay_sb (s : State) (p : Nat) (f : Quay → Quay) : (s.modQuay p f).sb = s.sb := rfl
@[simp] theorem modQuay_grade (s : State) (p : Nat) (f : Quay → Quay) : (s.modQuay p f).grade = s.grade := rfl
@[simp] theorem modQuay_job (s : State) (p : Nat) (f : Quay → Quay) : (s.modQuay p f).job = s.job := rfl
@[simp] theorem modQuay_steps (s : State) (p : Nat) (f : Quay → Quay) : (s.modQuay p f).steps = s.steps := rfl
@[simp] theorem modQuay_opt (s : State) (p : Nat) (f : Quay → Quay) : (s.modQuay p f).opt = s.opt := rfl
@[simp] theorem modQuay_num (s : State) (p : Nat) (f : Quay → Quay) : (s.modQuay p f).num = s.num := rfl
@[simp] theorem modQuay_coll (s : State) (p : Nat) (f : Quay → Quay) : (s.modQuay p f).coll = s.coll := rfl
@[simp] theorem modQuay_refr (s : State) (p : Nat) (f : Quay → Quay) : (s.modQuay p f).refr = s.refr := rfl
@[simp] theorem modQuay_hold (s : State) (p : Nat) (f : Quay → Quay) : (s.modQuay p f).hold = s.hold := rfl
@[simp] theorem modQuay_locker (s : State) (p : Nat) (f : Quay → Quay) : (s.modQuay p f).locker = s.locker := rfl
@[simp] theorem modQuay_crw (s : State) (p : Nat) (f : Quay → Quay) : (s.modQuay p f).crw = s.crw := rfl
@[simp] theorem modQuay_salv (s : State) (p : Nat) (f : Quay → Quay) : (s.modQuay p f).salv = s.salv := rfl
@[simp] theorem modQuay_xpar (s : State) (p : Nat) (f : Quay → Quay) : (s.modQuay p f).xpar = s.xpar := rfl
@[simp] theorem modQuay_lock (s : State) (p : Nat) (f : Quay → Quay) : (s.modQuay p f).lock = s.lock := rfl
@[simp] theorem modQuay_ev (s : State) (p : Nat) (f : Quay → Quay) : (s.modQuay p f).ev = s.ev := rfl
@[simp] theorem modQuay_snap (s : State) (p : Nat) (f : Quay → Quay) : (s.modQuay p f).snap = s.snap := rfl
@[simp] theorem modQuay_taps (s : State) (p : Nat) (f : Quay → Quay) : (s.modQuay p f).taps = s.taps := rfl
@[simp] theorem modQuay_ring (s : State) (p : Nat) (f : Quay → Quay) : (s.modQuay p f).ring = s.ring := rfl
@[simp] theorem modQuay_reliefs (s : State) (p : Nat) (f : Quay → Quay) : (s.modQuay p f).reliefs = s.reliefs := rfl
@[simp] theorem modQuay_restarts (s : State) (p : Nat) (f : Quay → Quay) : (s.modQuay p f).restarts = s.restarts := rfl
@[simp] theorem modQuay_cpWait (s : State) (p : Nat) (f : Quay → Quay) : (s.modQuay p f).cpWait = s.cpWait := rfl
@[simp] theorem modQuay_cpOut (s : State) (p : Nat) (f : Quay → Quay) : (s.modQuay p f).cpOut = s.cpOut := rfl
@[simp] theorem modQuay_regOut (s : State) (p : Nat) (f : Quay → Quay) : (s.modQuay p f).regOut = s.regOut := rfl
@[simp] theorem modQuay_mem (s : State) (p : Nat) (f : Quay → Quay) : (s.modQuay p f).mem = s.mem := rfl
@[simp] theorem modQuay_poisoned (s : State) (p : Nat) (f : Quay → Quay) : (s.modQuay p f).poisoned = s.poisoned := rfl
@[simp] theorem modQuay_badLines (s : State) (p : Nat) (f : Quay → Quay) : (s.modQuay p f).badLines = s.badLines := rfl
@[simp] theorem modQuay_free (s : State) (p : Nat) (f : Quay → Quay) : (s.modQuay p f).free = s.free := rfl
@[simp] theorem modQuay_pending (s : State) (p : Nat) (f : Quay → Quay) : (s.modQuay p f).pending = s.pending := rfl

/-! ## modPort -/

@[simp] theorem modPort_fit (s : State) (l : Nat) (f : PortSt → PortSt) : (s.modPort l f).fit = s.fit := rfl
@[simp] theorem modPort_hcfg (s : State) (l : Nat) (f : PortSt → PortSt) : (s.modPort l f).hcfg = s.hcfg := rfl
@[simp] theorem modPort_hLatch (s : State) (l : Nat) (f : PortSt → PortSt) : (s.modPort l f).hLatch = s.hLatch := rfl
@[simp] theorem modPort_quays (s : State) (l : Nat) (f : PortSt → PortSt) : (s.modPort l f).quays = s.quays := rfl
@[simp] theorem modPort_tide (s : State) (l : Nat) (f : PortSt → PortSt) : (s.modPort l f).tide = s.tide := rfl
@[simp] theorem modPort_man (s : State) (l : Nat) (f : PortSt → PortSt) : (s.modPort l f).man = s.man := rfl
@[simp] theorem modPort_boot (s : State) (l : Nat) (f : PortSt → PortSt) : (s.modPort l f).boot = s.boot := rfl
@[simp] theorem modPort_ident (s : State) (l : Nat) (f : PortSt → PortSt) : (s.modPort l f).ident = s.ident := rfl
@[simp] theorem modPort_sec (s : State) (l : Nat) (f : PortSt → PortSt) : (s.modPort l f).sec = s.sec := rfl
@[simp] theorem modPort_pwr (s : State) (l : Nat) (f : PortSt → PortSt) : (s.modPort l f).pwr = s.pwr := rfl
@[simp] theorem modPort_sb (s : State) (l : Nat) (f : PortSt → PortSt) : (s.modPort l f).sb = s.sb := rfl
@[simp] theorem modPort_grade (s : State) (l : Nat) (f : PortSt → PortSt) : (s.modPort l f).grade = s.grade := rfl
@[simp] theorem modPort_job (s : State) (l : Nat) (f : PortSt → PortSt) : (s.modPort l f).job = s.job := rfl
@[simp] theorem modPort_steps (s : State) (l : Nat) (f : PortSt → PortSt) : (s.modPort l f).steps = s.steps := rfl
@[simp] theorem modPort_opt (s : State) (l : Nat) (f : PortSt → PortSt) : (s.modPort l f).opt = s.opt := rfl
@[simp] theorem modPort_num (s : State) (l : Nat) (f : PortSt → PortSt) : (s.modPort l f).num = s.num := rfl
@[simp] theorem modPort_coll (s : State) (l : Nat) (f : PortSt → PortSt) : (s.modPort l f).coll = s.coll := rfl
@[simp] theorem modPort_refr (s : State) (l : Nat) (f : PortSt → PortSt) : (s.modPort l f).refr = s.refr := rfl
@[simp] theorem modPort_hold (s : State) (l : Nat) (f : PortSt → PortSt) : (s.modPort l f).hold = s.hold := rfl
@[simp] theorem modPort_locker (s : State) (l : Nat) (f : PortSt → PortSt) : (s.modPort l f).locker = s.locker := rfl
@[simp] theorem modPort_crw (s : State) (l : Nat) (f : PortSt → PortSt) : (s.modPort l f).crw = s.crw := rfl
@[simp] theorem modPort_salv (s : State) (l : Nat) (f : PortSt → PortSt) : (s.modPort l f).salv = s.salv := rfl
@[simp] theorem modPort_xpar (s : State) (l : Nat) (f : PortSt → PortSt) : (s.modPort l f).xpar = s.xpar := rfl
@[simp] theorem modPort_lock (s : State) (l : Nat) (f : PortSt → PortSt) : (s.modPort l f).lock = s.lock := rfl
@[simp] theorem modPort_ev (s : State) (l : Nat) (f : PortSt → PortSt) : (s.modPort l f).ev = s.ev := rfl
@[simp] theorem modPort_snap (s : State) (l : Nat) (f : PortSt → PortSt) : (s.modPort l f).snap = s.snap := rfl
@[simp] theorem modPort_taps (s : State) (l : Nat) (f : PortSt → PortSt) : (s.modPort l f).taps = s.taps := rfl
@[simp] theorem modPort_ring (s : State) (l : Nat) (f : PortSt → PortSt) : (s.modPort l f).ring = s.ring := rfl
@[simp] theorem modPort_reliefs (s : State) (l : Nat) (f : PortSt → PortSt) : (s.modPort l f).reliefs = s.reliefs := rfl
@[simp] theorem modPort_restarts (s : State) (l : Nat) (f : PortSt → PortSt) : (s.modPort l f).restarts = s.restarts := rfl
@[simp] theorem modPort_cpWait (s : State) (l : Nat) (f : PortSt → PortSt) : (s.modPort l f).cpWait = s.cpWait := rfl
@[simp] theorem modPort_cpOut (s : State) (l : Nat) (f : PortSt → PortSt) : (s.modPort l f).cpOut = s.cpOut := rfl
@[simp] theorem modPort_regOut (s : State) (l : Nat) (f : PortSt → PortSt) : (s.modPort l f).regOut = s.regOut := rfl
@[simp] theorem modPort_mem (s : State) (l : Nat) (f : PortSt → PortSt) : (s.modPort l f).mem = s.mem := rfl
@[simp] theorem modPort_poisoned (s : State) (l : Nat) (f : PortSt → PortSt) : (s.modPort l f).poisoned = s.poisoned := rfl
@[simp] theorem modPort_badLines (s : State) (l : Nat) (f : PortSt → PortSt) : (s.modPort l f).badLines = s.badLines := rfl
@[simp] theorem modPort_free (s : State) (l : Nat) (f : PortSt → PortSt) : (s.modPort l f).free = s.free := rfl
@[simp] theorem modPort_pending (s : State) (l : Nat) (f : PortSt → PortSt) : (s.modPort l f).pending = s.pending := rfl

/-! ## poke -/

@[simp] theorem poke_fit (s : State) (l addr n v : Nat) : (s.poke l addr n v).fit = s.fit := rfl
@[simp] theorem poke_hcfg (s : State) (l addr n v : Nat) : (s.poke l addr n v).hcfg = s.hcfg := rfl
@[simp] theorem poke_hLatch (s : State) (l addr n v : Nat) : (s.poke l addr n v).hLatch = s.hLatch := rfl
@[simp] theorem poke_quays (s : State) (l addr n v : Nat) : (s.poke l addr n v).quays = s.quays := rfl
@[simp] theorem poke_ports (s : State) (l addr n v : Nat) : (s.poke l addr n v).ports = s.ports := rfl
@[simp] theorem poke_tide (s : State) (l addr n v : Nat) : (s.poke l addr n v).tide = s.tide := rfl
@[simp] theorem poke_man (s : State) (l addr n v : Nat) : (s.poke l addr n v).man = s.man := rfl
@[simp] theorem poke_boot (s : State) (l addr n v : Nat) : (s.poke l addr n v).boot = s.boot := rfl
@[simp] theorem poke_ident (s : State) (l addr n v : Nat) : (s.poke l addr n v).ident = s.ident := rfl
@[simp] theorem poke_sec (s : State) (l addr n v : Nat) : (s.poke l addr n v).sec = s.sec := rfl
@[simp] theorem poke_pwr (s : State) (l addr n v : Nat) : (s.poke l addr n v).pwr = s.pwr := rfl
@[simp] theorem poke_sb (s : State) (l addr n v : Nat) : (s.poke l addr n v).sb = s.sb := rfl
@[simp] theorem poke_grade (s : State) (l addr n v : Nat) : (s.poke l addr n v).grade = s.grade := rfl
@[simp] theorem poke_job (s : State) (l addr n v : Nat) : (s.poke l addr n v).job = s.job := rfl
@[simp] theorem poke_steps (s : State) (l addr n v : Nat) : (s.poke l addr n v).steps = s.steps := rfl
@[simp] theorem poke_opt (s : State) (l addr n v : Nat) : (s.poke l addr n v).opt = s.opt := rfl
@[simp] theorem poke_num (s : State) (l addr n v : Nat) : (s.poke l addr n v).num = s.num := rfl
@[simp] theorem poke_coll (s : State) (l addr n v : Nat) : (s.poke l addr n v).coll = s.coll := rfl
@[simp] theorem poke_refr (s : State) (l addr n v : Nat) : (s.poke l addr n v).refr = s.refr := rfl
@[simp] theorem poke_hold (s : State) (l addr n v : Nat) : (s.poke l addr n v).hold = s.hold := rfl
@[simp] theorem poke_locker (s : State) (l addr n v : Nat) : (s.poke l addr n v).locker = s.locker := rfl
@[simp] theorem poke_crw (s : State) (l addr n v : Nat) : (s.poke l addr n v).crw = s.crw := rfl
@[simp] theorem poke_salv (s : State) (l addr n v : Nat) : (s.poke l addr n v).salv = s.salv := rfl
@[simp] theorem poke_xpar (s : State) (l addr n v : Nat) : (s.poke l addr n v).xpar = s.xpar := rfl
@[simp] theorem poke_lock (s : State) (l addr n v : Nat) : (s.poke l addr n v).lock = s.lock := rfl
@[simp] theorem poke_ev (s : State) (l addr n v : Nat) : (s.poke l addr n v).ev = s.ev := rfl
@[simp] theorem poke_snap (s : State) (l addr n v : Nat) : (s.poke l addr n v).snap = s.snap := rfl
@[simp] theorem poke_taps (s : State) (l addr n v : Nat) : (s.poke l addr n v).taps = s.taps := rfl
@[simp] theorem poke_ring (s : State) (l addr n v : Nat) : (s.poke l addr n v).ring = s.ring := rfl
@[simp] theorem poke_reliefs (s : State) (l addr n v : Nat) : (s.poke l addr n v).reliefs = s.reliefs := rfl
@[simp] theorem poke_restarts (s : State) (l addr n v : Nat) : (s.poke l addr n v).restarts = s.restarts := rfl
@[simp] theorem poke_cpWait (s : State) (l addr n v : Nat) : (s.poke l addr n v).cpWait = s.cpWait := rfl
@[simp] theorem poke_cpOut (s : State) (l addr n v : Nat) : (s.poke l addr n v).cpOut = s.cpOut := rfl
@[simp] theorem poke_regOut (s : State) (l addr n v : Nat) : (s.poke l addr n v).regOut = s.regOut := rfl
@[simp] theorem poke_poisoned (s : State) (l addr n v : Nat) : (s.poke l addr n v).poisoned = s.poisoned := rfl
@[simp] theorem poke_badLines (s : State) (l addr n v : Nat) : (s.poke l addr n v).badLines = s.badLines := rfl
@[simp] theorem poke_free (s : State) (l addr n v : Nat) : (s.poke l addr n v).free = s.free := rfl
@[simp] theorem poke_pending (s : State) (l addr n v : Nat) : (s.poke l addr n v).pending = s.pending := rfl

/-! ## setHw -/

@[simp] theorem setHw_fit (s : State) (off v : Nat) : (s.setHw off v).fit = s.fit := rfl
@[simp] theorem setHw_hLatch (s : State) (off v : Nat) : (s.setHw off v).hLatch = s.hLatch := rfl
@[simp] theorem setHw_quays (s : State) (off v : Nat) : (s.setHw off v).quays = s.quays := rfl
@[simp] theorem setHw_ports (s : State) (off v : Nat) : (s.setHw off v).ports = s.ports := rfl
@[simp] theorem setHw_tide (s : State) (off v : Nat) : (s.setHw off v).tide = s.tide := rfl
@[simp] theorem setHw_man (s : State) (off v : Nat) : (s.setHw off v).man = s.man := rfl
@[simp] theorem setHw_boot (s : State) (off v : Nat) : (s.setHw off v).boot = s.boot := rfl
@[simp] theorem setHw_ident (s : State) (off v : Nat) : (s.setHw off v).ident = s.ident := rfl
@[simp] theorem setHw_sec (s : State) (off v : Nat) : (s.setHw off v).sec = s.sec := rfl
@[simp] theorem setHw_pwr (s : State) (off v : Nat) : (s.setHw off v).pwr = s.pwr := rfl
@[simp] theorem setHw_sb (s : State) (off v : Nat) : (s.setHw off v).sb = s.sb := rfl
@[simp] theorem setHw_grade (s : State) (off v : Nat) : (s.setHw off v).grade = s.grade := rfl
@[simp] theorem setHw_job (s : State) (off v : Nat) : (s.setHw off v).job = s.job := rfl
@[simp] theorem setHw_steps (s : State) (off v : Nat) : (s.setHw off v).steps = s.steps := rfl
@[simp] theorem setHw_opt (s : State) (off v : Nat) : (s.setHw off v).opt = s.opt := rfl
@[simp] theorem setHw_num (s : State) (off v : Nat) : (s.setHw off v).num = s.num := rfl
@[simp] theorem setHw_coll (s : State) (off v : Nat) : (s.setHw off v).coll = s.coll := rfl
@[simp] theorem setHw_refr (s : State) (off v : Nat) : (s.setHw off v).refr = s.refr := rfl
@[simp] theorem setHw_hold (s : State) (off v : Nat) : (s.setHw off v).hold = s.hold := rfl
@[simp] theorem setHw_locker (s : State) (off v : Nat) : (s.setHw off v).locker = s.locker := rfl
@[simp] theorem setHw_crw (s : State) (off v : Nat) : (s.setHw off v).crw = s.crw := rfl
@[simp] theorem setHw_salv (s : State) (off v : Nat) : (s.setHw off v).salv = s.salv := rfl
@[simp] theorem setHw_xpar (s : State) (off v : Nat) : (s.setHw off v).xpar = s.xpar := rfl
@[simp] theorem setHw_lock (s : State) (off v : Nat) : (s.setHw off v).lock = s.lock := rfl
@[simp] theorem setHw_ev (s : State) (off v : Nat) : (s.setHw off v).ev = s.ev := rfl
@[simp] theorem setHw_snap (s : State) (off v : Nat) : (s.setHw off v).snap = s.snap := rfl
@[simp] theorem setHw_taps (s : State) (off v : Nat) : (s.setHw off v).taps = s.taps := rfl
@[simp] theorem setHw_ring (s : State) (off v : Nat) : (s.setHw off v).ring = s.ring := rfl
@[simp] theorem setHw_reliefs (s : State) (off v : Nat) : (s.setHw off v).reliefs = s.reliefs := rfl
@[simp] theorem setHw_restarts (s : State) (off v : Nat) : (s.setHw off v).restarts = s.restarts := rfl
@[simp] theorem setHw_cpWait (s : State) (off v : Nat) : (s.setHw off v).cpWait = s.cpWait := rfl
@[simp] theorem setHw_cpOut (s : State) (off v : Nat) : (s.setHw off v).cpOut = s.cpOut := rfl
@[simp] theorem setHw_regOut (s : State) (off v : Nat) : (s.setHw off v).regOut = s.regOut := rfl
@[simp] theorem setHw_mem (s : State) (off v : Nat) : (s.setHw off v).mem = s.mem := rfl
@[simp] theorem setHw_poisoned (s : State) (off v : Nat) : (s.setHw off v).poisoned = s.poisoned := rfl
@[simp] theorem setHw_badLines (s : State) (off v : Nat) : (s.setHw off v).badLines = s.badLines := rfl
@[simp] theorem setHw_free (s : State) (off v : Nat) : (s.setHw off v).free = s.free := rfl
@[simp] theorem setHw_pending (s : State) (off v : Nat) : (s.setHw off v).pending = s.pending := rfl

/-! ## setAlarm -/

@[simp] theorem setAlarm_fit (s : State) (b : Nat) : (s.setAlarm b).fit = s.fit := rfl
@[simp] theorem setAlarm_hcfg (s : State) (b : Nat) : (s.setAlarm b).hcfg = s.hcfg := rfl
@[simp] theorem setAlarm_hLatch (s : State) (b : Nat) : (s.setAlarm b).hLatch = s.hLatch := rfl
@[simp] theorem setAlarm_quays (s : State) (b : Nat) : (s.setAlarm b).quays = s.quays := rfl
@[simp] theorem setAlarm_ports (s : State) (b : Nat) : (s.setAlarm b).ports = s.ports := rfl
@[simp] theorem setAlarm_tide (s : State) (b : Nat) : (s.setAlarm b).tide = s.tide := rfl
@[simp] theorem setAlarm_man (s : State) (b : Nat) : (s.setAlarm b).man = s.man := rfl
@[simp] theorem setAlarm_boot (s : State) (b : Nat) : (s.setAlarm b).boot = s.boot := rfl
@[simp] theorem setAlarm_ident (s : State) (b : Nat) : (s.setAlarm b).ident = s.ident := rfl
@[simp] theorem setAlarm_sec (s : State) (b : Nat) : (s.setAlarm b).sec = s.sec := rfl
@[simp] theorem setAlarm_pwr (s : State) (b : Nat) : (s.setAlarm b).pwr = s.pwr := rfl
@[simp] theorem setAlarm_sb (s : State) (b : Nat) : (s.setAlarm b).sb = s.sb := rfl
@[simp] theorem setAlarm_grade (s : State) (b : Nat) : (s.setAlarm b).grade = s.grade := rfl
@[simp] theorem setAlarm_job (s : State) (b : Nat) : (s.setAlarm b).job = s.job := rfl
@[simp] theorem setAlarm_steps (s : State) (b : Nat) : (s.setAlarm b).steps = s.steps := rfl
@[simp] theorem setAlarm_opt (s : State) (b : Nat) : (s.setAlarm b).opt = s.opt := rfl
@[simp] theorem setAlarm_num (s : State) (b : Nat) : (s.setAlarm b).num = s.num := rfl
@[simp] theorem setAlarm_coll (s : State) (b : Nat) : (s.setAlarm b).coll = s.coll := rfl
@[simp] theorem setAlarm_refr (s : State) (b : Nat) : (s.setAlarm b).refr = s.refr := rfl
@[simp] theorem setAlarm_hold (s : State) (b : Nat) : (s.setAlarm b).hold = s.hold := rfl
@[simp] theorem setAlarm_locker (s : State) (b : Nat) : (s.setAlarm b).locker = s.locker := rfl
@[simp] theorem setAlarm_crw (s : State) (b : Nat) : (s.setAlarm b).crw = s.crw := rfl
@[simp] theorem setAlarm_salv (s : State) (b : Nat) : (s.setAlarm b).salv = s.salv := rfl
@[simp] theorem setAlarm_xpar (s : State) (b : Nat) : (s.setAlarm b).xpar = s.xpar := rfl
@[simp] theorem setAlarm_lock (s : State) (b : Nat) : (s.setAlarm b).lock = s.lock := rfl
@[simp] theorem setAlarm_snap (s : State) (b : Nat) : (s.setAlarm b).snap = s.snap := rfl
@[simp] theorem setAlarm_taps (s : State) (b : Nat) : (s.setAlarm b).taps = s.taps := rfl
@[simp] theorem setAlarm_ring (s : State) (b : Nat) : (s.setAlarm b).ring = s.ring := rfl
@[simp] theorem setAlarm_reliefs (s : State) (b : Nat) : (s.setAlarm b).reliefs = s.reliefs := rfl
@[simp] theorem setAlarm_restarts (s : State) (b : Nat) : (s.setAlarm b).restarts = s.restarts := rfl
@[simp] theorem setAlarm_cpWait (s : State) (b : Nat) : (s.setAlarm b).cpWait = s.cpWait := rfl
@[simp] theorem setAlarm_cpOut (s : State) (b : Nat) : (s.setAlarm b).cpOut = s.cpOut := rfl
@[simp] theorem setAlarm_regOut (s : State) (b : Nat) : (s.setAlarm b).regOut = s.regOut := rfl
@[simp] theorem setAlarm_mem (s : State) (b : Nat) : (s.setAlarm b).mem = s.mem := rfl
@[simp] theorem setAlarm_poisoned (s : State) (b : Nat) : (s.setAlarm b).poisoned = s.poisoned := rfl
@[simp] theorem setAlarm_badLines (s : State) (b : Nat) : (s.setAlarm b).badLines = s.badLines := rfl
@[simp] theorem setAlarm_free (s : State) (b : Nat) : (s.setAlarm b).free = s.free := rfl
@[simp] theorem setAlarm_pending (s : State) (b : Nat) : (s.setAlarm b).pending = s.pending := rfl

/-! ## setIrq -/

@[simp] theorem setIrq_fit (s : State) (b : Nat) : (s.setIrq b).fit = s.fit := rfl
@[simp] theorem setIrq_hcfg (s : State) (b : Nat) : (s.setIrq b).hcfg = s.hcfg := rfl
@[simp] theorem setIrq_hLatch (s : State) (b : Nat) : (s.setIrq b).hLatch = s.hLatch := rfl
@[simp] theorem setIrq_quays (s : State) (b : Nat) : (s.setIrq b).quays = s.quays := rfl
@[simp] theorem setIrq_ports (s : State) (b : Nat) : (s.setIrq b).ports = s.ports := rfl
@[simp] theorem setIrq_tide (s : State) (b : Nat) : (s.setIrq b).tide = s.tide := rfl
@[simp] theorem setIrq_man (s : State) (b : Nat) : (s.setIrq b).man = s.man := rfl
@[simp] theorem setIrq_boot (s : State) (b : Nat) : (s.setIrq b).boot = s.boot := rfl
@[simp] theorem setIrq_ident (s : State) (b : Nat) : (s.setIrq b).ident = s.ident := rfl
@[simp] theorem setIrq_sec (s : State) (b : Nat) : (s.setIrq b).sec = s.sec := rfl
@[simp] theorem setIrq_pwr (s : State) (b : Nat) : (s.setIrq b).pwr = s.pwr := rfl
@[simp] theorem setIrq_sb (s : State) (b : Nat) : (s.setIrq b).sb = s.sb := rfl
@[simp] theorem setIrq_grade (s : State) (b : Nat) : (s.setIrq b).grade = s.grade := rfl
@[simp] theorem setIrq_job (s : State) (b : Nat) : (s.setIrq b).job = s.job := rfl
@[simp] theorem setIrq_steps (s : State) (b : Nat) : (s.setIrq b).steps = s.steps := rfl
@[simp] theorem setIrq_opt (s : State) (b : Nat) : (s.setIrq b).opt = s.opt := rfl
@[simp] theorem setIrq_num (s : State) (b : Nat) : (s.setIrq b).num = s.num := rfl
@[simp] theorem setIrq_coll (s : State) (b : Nat) : (s.setIrq b).coll = s.coll := rfl
@[simp] theorem setIrq_refr (s : State) (b : Nat) : (s.setIrq b).refr = s.refr := rfl
@[simp] theorem setIrq_hold (s : State) (b : Nat) : (s.setIrq b).hold = s.hold := rfl
@[simp] theorem setIrq_locker (s : State) (b : Nat) : (s.setIrq b).locker = s.locker := rfl
@[simp] theorem setIrq_crw (s : State) (b : Nat) : (s.setIrq b).crw = s.crw := rfl
@[simp] theorem setIrq_salv (s : State) (b : Nat) : (s.setIrq b).salv = s.salv := rfl
@[simp] theorem setIrq_xpar (s : State) (b : Nat) : (s.setIrq b).xpar = s.xpar := rfl
@[simp] theorem setIrq_lock (s : State) (b : Nat) : (s.setIrq b).lock = s.lock := rfl
@[simp] theorem setIrq_snap (s : State) (b : Nat) : (s.setIrq b).snap = s.snap := rfl
@[simp] theorem setIrq_taps (s : State) (b : Nat) : (s.setIrq b).taps = s.taps := rfl
@[simp] theorem setIrq_ring (s : State) (b : Nat) : (s.setIrq b).ring = s.ring := rfl
@[simp] theorem setIrq_reliefs (s : State) (b : Nat) : (s.setIrq b).reliefs = s.reliefs := rfl
@[simp] theorem setIrq_restarts (s : State) (b : Nat) : (s.setIrq b).restarts = s.restarts := rfl
@[simp] theorem setIrq_cpWait (s : State) (b : Nat) : (s.setIrq b).cpWait = s.cpWait := rfl
@[simp] theorem setIrq_cpOut (s : State) (b : Nat) : (s.setIrq b).cpOut = s.cpOut := rfl
@[simp] theorem setIrq_regOut (s : State) (b : Nat) : (s.setIrq b).regOut = s.regOut := rfl
@[simp] theorem setIrq_mem (s : State) (b : Nat) : (s.setIrq b).mem = s.mem := rfl
@[simp] theorem setIrq_poisoned (s : State) (b : Nat) : (s.setIrq b).poisoned = s.poisoned := rfl
@[simp] theorem setIrq_badLines (s : State) (b : Nat) : (s.setIrq b).badLines = s.badLines := rfl
@[simp] theorem setIrq_free (s : State) (b : Nat) : (s.setIrq b).free = s.free := rfl
@[simp] theorem setIrq_pending (s : State) (b : Nat) : (s.setIrq b).pending = s.pending := rfl

/-! ## regAnswer -/

@[simp] theorem regAnswer_fit (s : State) (resp rdata : Nat) : (s.regAnswer resp rdata).fit = s.fit := rfl
@[simp] theorem regAnswer_hcfg (s : State) (resp rdata : Nat) : (s.regAnswer resp rdata).hcfg = s.hcfg := rfl
@[simp] theorem regAnswer_hLatch (s : State) (resp rdata : Nat) : (s.regAnswer resp rdata).hLatch = s.hLatch := rfl
@[simp] theorem regAnswer_quays (s : State) (resp rdata : Nat) : (s.regAnswer resp rdata).quays = s.quays := rfl
@[simp] theorem regAnswer_ports (s : State) (resp rdata : Nat) : (s.regAnswer resp rdata).ports = s.ports := rfl
@[simp] theorem regAnswer_tide (s : State) (resp rdata : Nat) : (s.regAnswer resp rdata).tide = s.tide := rfl
@[simp] theorem regAnswer_man (s : State) (resp rdata : Nat) : (s.regAnswer resp rdata).man = s.man := rfl
@[simp] theorem regAnswer_boot (s : State) (resp rdata : Nat) : (s.regAnswer resp rdata).boot = s.boot := rfl
@[simp] theorem regAnswer_ident (s : State) (resp rdata : Nat) : (s.regAnswer resp rdata).ident = s.ident := rfl
@[simp] theorem regAnswer_sec (s : State) (resp rdata : Nat) : (s.regAnswer resp rdata).sec = s.sec := rfl
@[simp] theorem regAnswer_pwr (s : State) (resp rdata : Nat) : (s.regAnswer resp rdata).pwr = s.pwr := rfl
@[simp] theorem regAnswer_sb (s : State) (resp rdata : Nat) : (s.regAnswer resp rdata).sb = s.sb := rfl
@[simp] theorem regAnswer_grade (s : State) (resp rdata : Nat) : (s.regAnswer resp rdata).grade = s.grade := rfl
@[simp] theorem regAnswer_job (s : State) (resp rdata : Nat) : (s.regAnswer resp rdata).job = s.job := rfl
@[simp] theorem regAnswer_steps (s : State) (resp rdata : Nat) : (s.regAnswer resp rdata).steps = s.steps := rfl
@[simp] theorem regAnswer_opt (s : State) (resp rdata : Nat) : (s.regAnswer resp rdata).opt = s.opt := rfl
@[simp] theorem regAnswer_num (s : State) (resp rdata : Nat) : (s.regAnswer resp rdata).num = s.num := rfl
@[simp] theorem regAnswer_coll (s : State) (resp rdata : Nat) : (s.regAnswer resp rdata).coll = s.coll := rfl
@[simp] theorem regAnswer_refr (s : State) (resp rdata : Nat) : (s.regAnswer resp rdata).refr = s.refr := rfl
@[simp] theorem regAnswer_hold (s : State) (resp rdata : Nat) : (s.regAnswer resp rdata).hold = s.hold := rfl
@[simp] theorem regAnswer_locker (s : State) (resp rdata : Nat) : (s.regAnswer resp rdata).locker = s.locker := rfl
@[simp] theorem regAnswer_crw (s : State) (resp rdata : Nat) : (s.regAnswer resp rdata).crw = s.crw := rfl
@[simp] theorem regAnswer_salv (s : State) (resp rdata : Nat) : (s.regAnswer resp rdata).salv = s.salv := rfl
@[simp] theorem regAnswer_xpar (s : State) (resp rdata : Nat) : (s.regAnswer resp rdata).xpar = s.xpar := rfl
@[simp] theorem regAnswer_lock (s : State) (resp rdata : Nat) : (s.regAnswer resp rdata).lock = s.lock := rfl
@[simp] theorem regAnswer_ev (s : State) (resp rdata : Nat) : (s.regAnswer resp rdata).ev = s.ev := rfl
@[simp] theorem regAnswer_snap (s : State) (resp rdata : Nat) : (s.regAnswer resp rdata).snap = s.snap := rfl
@[simp] theorem regAnswer_taps (s : State) (resp rdata : Nat) : (s.regAnswer resp rdata).taps = s.taps := rfl
@[simp] theorem regAnswer_ring (s : State) (resp rdata : Nat) : (s.regAnswer resp rdata).ring = s.ring := rfl
@[simp] theorem regAnswer_reliefs (s : State) (resp rdata : Nat) : (s.regAnswer resp rdata).reliefs = s.reliefs := rfl
@[simp] theorem regAnswer_restarts (s : State) (resp rdata : Nat) : (s.regAnswer resp rdata).restarts = s.restarts := rfl
@[simp] theorem regAnswer_cpWait (s : State) (resp rdata : Nat) : (s.regAnswer resp rdata).cpWait = s.cpWait := rfl
@[simp] theorem regAnswer_cpOut (s : State) (resp rdata : Nat) : (s.regAnswer resp rdata).cpOut = s.cpOut := rfl
@[simp] theorem regAnswer_mem (s : State) (resp rdata : Nat) : (s.regAnswer resp rdata).mem = s.mem := rfl
@[simp] theorem regAnswer_poisoned (s : State) (resp rdata : Nat) : (s.regAnswer resp rdata).poisoned = s.poisoned := rfl
@[simp] theorem regAnswer_badLines (s : State) (resp rdata : Nat) : (s.regAnswer resp rdata).badLines = s.badLines := rfl
@[simp] theorem regAnswer_free (s : State) (resp rdata : Nat) : (s.regAnswer resp rdata).free = s.free := rfl
@[simp] theorem regAnswer_pending (s : State) (resp rdata : Nat) : (s.regAnswer resp rdata).pending = s.pending := rfl

/-! ## setTap -/

@[simp] theorem setTap_fit (s : State) (p : Nat) (t : Tap) : (s.setTap p t).fit = s.fit := rfl
@[simp] theorem setTap_hcfg (s : State) (p : Nat) (t : Tap) : (s.setTap p t).hcfg = s.hcfg := rfl
@[simp] theorem setTap_hLatch (s : State) (p : Nat) (t : Tap) : (s.setTap p t).hLatch = s.hLatch := rfl
@[simp] theorem setTap_quays (s : State) (p : Nat) (t : Tap) : (s.setTap p t).quays = s.quays := rfl
@[simp] theorem setTap_ports (s : State) (p : Nat) (t : Tap) : (s.setTap p t).ports = s.ports := rfl
@[simp] theorem setTap_tide (s : State) (p : Nat) (t : Tap) : (s.setTap p t).tide = s.tide := rfl
@[simp] theorem setTap_man (s : State) (p : Nat) (t : Tap) : (s.setTap p t).man = s.man := rfl
@[simp] theorem setTap_boot (s : State) (p : Nat) (t : Tap) : (s.setTap p t).boot = s.boot := rfl
@[simp] theorem setTap_ident (s : State) (p : Nat) (t : Tap) : (s.setTap p t).ident = s.ident := rfl
@[simp] theorem setTap_sec (s : State) (p : Nat) (t : Tap) : (s.setTap p t).sec = s.sec := rfl
@[simp] theorem setTap_pwr (s : State) (p : Nat) (t : Tap) : (s.setTap p t).pwr = s.pwr := rfl
@[simp] theorem setTap_sb (s : State) (p : Nat) (t : Tap) : (s.setTap p t).sb = s.sb := rfl
@[simp] theorem setTap_grade (s : State) (p : Nat) (t : Tap) : (s.setTap p t).grade = s.grade := rfl
@[simp] theorem setTap_job (s : State) (p : Nat) (t : Tap) : (s.setTap p t).job = s.job := rfl
@[simp] theorem setTap_steps (s : State) (p : Nat) (t : Tap) : (s.setTap p t).steps = s.steps := rfl
@[simp] theorem setTap_opt (s : State) (p : Nat) (t : Tap) : (s.setTap p t).opt = s.opt := rfl
@[simp] theorem setTap_num (s : State) (p : Nat) (t : Tap) : (s.setTap p t).num = s.num := rfl
@[simp] theorem setTap_coll (s : State) (p : Nat) (t : Tap) : (s.setTap p t).coll = s.coll := rfl
@[simp] theorem setTap_refr (s : State) (p : Nat) (t : Tap) : (s.setTap p t).refr = s.refr := rfl
@[simp] theorem setTap_hold (s : State) (p : Nat) (t : Tap) : (s.setTap p t).hold = s.hold := rfl
@[simp] theorem setTap_locker (s : State) (p : Nat) (t : Tap) : (s.setTap p t).locker = s.locker := rfl
@[simp] theorem setTap_crw (s : State) (p : Nat) (t : Tap) : (s.setTap p t).crw = s.crw := rfl
@[simp] theorem setTap_salv (s : State) (p : Nat) (t : Tap) : (s.setTap p t).salv = s.salv := rfl
@[simp] theorem setTap_xpar (s : State) (p : Nat) (t : Tap) : (s.setTap p t).xpar = s.xpar := rfl
@[simp] theorem setTap_lock (s : State) (p : Nat) (t : Tap) : (s.setTap p t).lock = s.lock := rfl
@[simp] theorem setTap_ev (s : State) (p : Nat) (t : Tap) : (s.setTap p t).ev = s.ev := rfl
@[simp] theorem setTap_snap (s : State) (p : Nat) (t : Tap) : (s.setTap p t).snap = s.snap := rfl
@[simp] theorem setTap_ring (s : State) (p : Nat) (t : Tap) : (s.setTap p t).ring = s.ring := rfl
@[simp] theorem setTap_reliefs (s : State) (p : Nat) (t : Tap) : (s.setTap p t).reliefs = s.reliefs := rfl
@[simp] theorem setTap_restarts (s : State) (p : Nat) (t : Tap) : (s.setTap p t).restarts = s.restarts := rfl
@[simp] theorem setTap_cpWait (s : State) (p : Nat) (t : Tap) : (s.setTap p t).cpWait = s.cpWait := rfl
@[simp] theorem setTap_cpOut (s : State) (p : Nat) (t : Tap) : (s.setTap p t).cpOut = s.cpOut := rfl
@[simp] theorem setTap_regOut (s : State) (p : Nat) (t : Tap) : (s.setTap p t).regOut = s.regOut := rfl
@[simp] theorem setTap_mem (s : State) (p : Nat) (t : Tap) : (s.setTap p t).mem = s.mem := rfl
@[simp] theorem setTap_poisoned (s : State) (p : Nat) (t : Tap) : (s.setTap p t).poisoned = s.poisoned := rfl
@[simp] theorem setTap_badLines (s : State) (p : Nat) (t : Tap) : (s.setTap p t).badLines = s.badLines := rfl
@[simp] theorem setTap_free (s : State) (p : Nat) (t : Tap) : (s.setTap p t).free = s.free := rfl
@[simp] theorem setTap_pending (s : State) (p : Nat) (t : Tap) : (s.setTap p t).pending = s.pending := rfl

/-! ## withDue -/

@[simp] theorem withDue_fit (s : State) (rest : List DueEv) : (s.withDue rest).fit = s.fit := rfl
@[simp] theorem withDue_hcfg (s : State) (rest : List DueEv) : (s.withDue rest).hcfg = s.hcfg := rfl
@[simp] theorem withDue_hLatch (s : State) (rest : List DueEv) : (s.withDue rest).hLatch = s.hLatch := rfl
@[simp] theorem withDue_quays (s : State) (rest : List DueEv) : (s.withDue rest).quays = s.quays := rfl
@[simp] theorem withDue_ports (s : State) (rest : List DueEv) : (s.withDue rest).ports = s.ports := rfl
@[simp] theorem withDue_tide (s : State) (rest : List DueEv) : (s.withDue rest).tide = s.tide := rfl
@[simp] theorem withDue_boot (s : State) (rest : List DueEv) : (s.withDue rest).boot = s.boot := rfl
@[simp] theorem withDue_ident (s : State) (rest : List DueEv) : (s.withDue rest).ident = s.ident := rfl
@[simp] theorem withDue_sec (s : State) (rest : List DueEv) : (s.withDue rest).sec = s.sec := rfl
@[simp] theorem withDue_pwr (s : State) (rest : List DueEv) : (s.withDue rest).pwr = s.pwr := rfl
@[simp] theorem withDue_sb (s : State) (rest : List DueEv) : (s.withDue rest).sb = s.sb := rfl
@[simp] theorem withDue_grade (s : State) (rest : List DueEv) : (s.withDue rest).grade = s.grade := rfl
@[simp] theorem withDue_job (s : State) (rest : List DueEv) : (s.withDue rest).job = s.job := rfl
@[simp] theorem withDue_steps (s : State) (rest : List DueEv) : (s.withDue rest).steps = s.steps := rfl
@[simp] theorem withDue_opt (s : State) (rest : List DueEv) : (s.withDue rest).opt = s.opt := rfl
@[simp] theorem withDue_num (s : State) (rest : List DueEv) : (s.withDue rest).num = s.num := rfl
@[simp] theorem withDue_coll (s : State) (rest : List DueEv) : (s.withDue rest).coll = s.coll := rfl
@[simp] theorem withDue_refr (s : State) (rest : List DueEv) : (s.withDue rest).refr = s.refr := rfl
@[simp] theorem withDue_hold (s : State) (rest : List DueEv) : (s.withDue rest).hold = s.hold := rfl
@[simp] theorem withDue_locker (s : State) (rest : List DueEv) : (s.withDue rest).locker = s.locker := rfl
@[simp] theorem withDue_crw (s : State) (rest : List DueEv) : (s.withDue rest).crw = s.crw := rfl
@[simp] theorem withDue_salv (s : State) (rest : List DueEv) : (s.withDue rest).salv = s.salv := rfl
@[simp] theorem withDue_xpar (s : State) (rest : List DueEv) : (s.withDue rest).xpar = s.xpar := rfl
@[simp] theorem withDue_lock (s : State) (rest : List DueEv) : (s.withDue rest).lock = s.lock := rfl
@[simp] theorem withDue_ev (s : State) (rest : List DueEv) : (s.withDue rest).ev = s.ev := rfl
@[simp] theorem withDue_snap (s : State) (rest : List DueEv) : (s.withDue rest).snap = s.snap := rfl
@[simp] theorem withDue_taps (s : State) (rest : List DueEv) : (s.withDue rest).taps = s.taps := rfl
@[simp] theorem withDue_ring (s : State) (rest : List DueEv) : (s.withDue rest).ring = s.ring := rfl
@[simp] theorem withDue_reliefs (s : State) (rest : List DueEv) : (s.withDue rest).reliefs = s.reliefs := rfl
@[simp] theorem withDue_restarts (s : State) (rest : List DueEv) : (s.withDue rest).restarts = s.restarts := rfl
@[simp] theorem withDue_cpWait (s : State) (rest : List DueEv) : (s.withDue rest).cpWait = s.cpWait := rfl
@[simp] theorem withDue_cpOut (s : State) (rest : List DueEv) : (s.withDue rest).cpOut = s.cpOut := rfl
@[simp] theorem withDue_regOut (s : State) (rest : List DueEv) : (s.withDue rest).regOut = s.regOut := rfl
@[simp] theorem withDue_mem (s : State) (rest : List DueEv) : (s.withDue rest).mem = s.mem := rfl
@[simp] theorem withDue_poisoned (s : State) (rest : List DueEv) : (s.withDue rest).poisoned = s.poisoned := rfl
@[simp] theorem withDue_badLines (s : State) (rest : List DueEv) : (s.withDue rest).badLines = s.badLines := rfl
@[simp] theorem withDue_free (s : State) (rest : List DueEv) : (s.withDue rest).free = s.free := rfl
@[simp] theorem withDue_pending (s : State) (rest : List DueEv) : (s.withDue rest).pending = s.pending := rfl

/-! ## modLquay -/

@[simp] theorem modLquay_fit (s : State) (l : Nat) (f : Quay → Quay) : (s.modLquay l f).fit = s.fit := by unfold State.modLquay; split <;> rfl
@[simp] theorem modLquay_hcfg (s : State) (l : Nat) (f : Quay → Quay) : (s.modLquay l f).hcfg = s.hcfg := by unfold State.modLquay; split <;> rfl
@[simp] theorem modLquay_hLatch (s : State) (l : Nat) (f : Quay → Quay) : (s.modLquay l f).hLatch = s.hLatch := by unfold State.modLquay; split <;> rfl
@[simp] theorem modLquay_ports (s : State) (l : Nat) (f : Quay → Quay) : (s.modLquay l f).ports = s.ports := by unfold State.modLquay; split <;> rfl
@[simp] theorem modLquay_tide (s : State) (l : Nat) (f : Quay → Quay) : (s.modLquay l f).tide = s.tide := by unfold State.modLquay; split <;> rfl
@[simp] theorem modLquay_man (s : State) (l : Nat) (f : Quay → Quay) : (s.modLquay l f).man = s.man := by unfold State.modLquay; split <;> rfl
@[simp] theorem modLquay_boot (s : State) (l : Nat) (f : Quay → Quay) : (s.modLquay l f).boot = s.boot := by unfold State.modLquay; split <;> rfl
@[simp] theorem modLquay_ident (s : State) (l : Nat) (f : Quay → Quay) : (s.modLquay l f).ident = s.ident := by unfold State.modLquay; split <;> rfl
@[simp] theorem modLquay_sec (s : State) (l : Nat) (f : Quay → Quay) : (s.modLquay l f).sec = s.sec := by unfold State.modLquay; split <;> rfl
@[simp] theorem modLquay_pwr (s : State) (l : Nat) (f : Quay → Quay) : (s.modLquay l f).pwr = s.pwr := by unfold State.modLquay; split <;> rfl
@[simp] theorem modLquay_sb (s : State) (l : Nat) (f : Quay → Quay) : (s.modLquay l f).sb = s.sb := by unfold State.modLquay; split <;> rfl
@[simp] theorem modLquay_grade (s : State) (l : Nat) (f : Quay → Quay) : (s.modLquay l f).grade = s.grade := by unfold State.modLquay; split <;> rfl
@[simp] theorem modLquay_job (s : State) (l : Nat) (f : Quay → Quay) : (s.modLquay l f).job = s.job := by unfold State.modLquay; split <;> rfl
@[simp] theorem modLquay_steps (s : State) (l : Nat) (f : Quay → Quay) : (s.modLquay l f).steps = s.steps := by unfold State.modLquay; split <;> rfl
@[simp] theorem modLquay_opt (s : State) (l : Nat) (f : Quay → Quay) : (s.modLquay l f).opt = s.opt := by unfold State.modLquay; split <;> rfl
@[simp] theorem modLquay_num (s : State) (l : Nat) (f : Quay → Quay) : (s.modLquay l f).num = s.num := by unfold State.modLquay; split <;> rfl
@[simp] theorem modLquay_coll (s : State) (l : Nat) (f : Quay → Quay) : (s.modLquay l f).coll = s.coll := by unfold State.modLquay; split <;> rfl
@[simp] theorem modLquay_refr (s : State) (l : Nat) (f : Quay → Quay) : (s.modLquay l f).refr = s.refr := by unfold State.modLquay; split <;> rfl
@[simp] theorem modLquay_hold (s : State) (l : Nat) (f : Quay → Quay) : (s.modLquay l f).hold = s.hold := by unfold State.modLquay; split <;> rfl
@[simp] theorem modLquay_locker (s : State) (l : Nat) (f : Quay → Quay) : (s.modLquay l f).locker = s.locker := by unfold State.modLquay; split <;> rfl
@[simp] theorem modLquay_crw (s : State) (l : Nat) (f : Quay → Quay) : (s.modLquay l f).crw = s.crw := by unfold State.modLquay; split <;> rfl
@[simp] theorem modLquay_salv (s : State) (l : Nat) (f : Quay → Quay) : (s.modLquay l f).salv = s.salv := by unfold State.modLquay; split <;> rfl
@[simp] theorem modLquay_xpar (s : State) (l : Nat) (f : Quay → Quay) : (s.modLquay l f).xpar = s.xpar := by unfold State.modLquay; split <;> rfl
@[simp] theorem modLquay_lock (s : State) (l : Nat) (f : Quay → Quay) : (s.modLquay l f).lock = s.lock := by unfold State.modLquay; split <;> rfl
@[simp] theorem modLquay_ev (s : State) (l : Nat) (f : Quay → Quay) : (s.modLquay l f).ev = s.ev := by unfold State.modLquay; split <;> rfl
@[simp] theorem modLquay_snap (s : State) (l : Nat) (f : Quay → Quay) : (s.modLquay l f).snap = s.snap := by unfold State.modLquay; split <;> rfl
@[simp] theorem modLquay_taps (s : State) (l : Nat) (f : Quay → Quay) : (s.modLquay l f).taps = s.taps := by unfold State.modLquay; split <;> rfl
@[simp] theorem modLquay_ring (s : State) (l : Nat) (f : Quay → Quay) : (s.modLquay l f).ring = s.ring := by unfold State.modLquay; split <;> rfl
@[simp] theorem modLquay_reliefs (s : State) (l : Nat) (f : Quay → Quay) : (s.modLquay l f).reliefs = s.reliefs := by unfold State.modLquay; split <;> rfl
@[simp] theorem modLquay_restarts (s : State) (l : Nat) (f : Quay → Quay) : (s.modLquay l f).restarts = s.restarts := by unfold State.modLquay; split <;> rfl
@[simp] theorem modLquay_cpWait (s : State) (l : Nat) (f : Quay → Quay) : (s.modLquay l f).cpWait = s.cpWait := by unfold State.modLquay; split <;> rfl
@[simp] theorem modLquay_cpOut (s : State) (l : Nat) (f : Quay → Quay) : (s.modLquay l f).cpOut = s.cpOut := by unfold State.modLquay; split <;> rfl
@[simp] theorem modLquay_regOut (s : State) (l : Nat) (f : Quay → Quay) : (s.modLquay l f).regOut = s.regOut := by unfold State.modLquay; split <;> rfl
@[simp] theorem modLquay_mem (s : State) (l : Nat) (f : Quay → Quay) : (s.modLquay l f).mem = s.mem := by unfold State.modLquay; split <;> rfl
@[simp] theorem modLquay_poisoned (s : State) (l : Nat) (f : Quay → Quay) : (s.modLquay l f).poisoned = s.poisoned := by unfold State.modLquay; split <;> rfl
@[simp] theorem modLquay_badLines (s : State) (l : Nat) (f : Quay → Quay) : (s.modLquay l f).badLines = s.badLines := by unfold State.modLquay; split <;> rfl
@[simp] theorem modLquay_free (s : State) (l : Nat) (f : Quay → Quay) : (s.modLquay l f).free = s.free := by unfold State.modLquay; split <;> rfl
@[simp] theorem modLquay_pending (s : State) (l : Nat) (f : Quay → Quay) : (s.modLquay l f).pending = s.pending := by unfold State.modLquay; split <;> rfl

/-! ## What the updates give -/

@[simp] theorem Tbl_get_set_self {κ α : Type} [DecidableEq κ] (d : α) (t : Tbl κ α) (k : κ) (v : α) : (t.set k v).get d k = v := by
  induction t with
  | nil => simp [Tbl.set, Tbl.get]
  | cons e t ih =>
    obtain ⟨k', v'⟩ := e
    by_cases h : k' = k <;> simp [Tbl.set, Tbl.get, h, ih]

theorem Tbl_get_set_ne {κ α : Type} [DecidableEq κ] (d : α) (t : Tbl κ α) {k k' : κ} (v : α) (h : k' ≠ k) :
    (t.set k v).get d k' = t.get d k' := by
  induction t with
  | nil => simp [Tbl.set, Tbl.get, Ne.symm h]
  | cons e t ih =>
    obtain ⟨k'', v'⟩ := e
    by_cases h1 : k'' = k
    · subst h1
      simp [Tbl.set, Tbl.get, Ne.symm h]
    · by_cases h2 : k'' = k'
      · subst h2
        simp [Tbl.set, Tbl.get, h1]
      · simp [Tbl.set, Tbl.get, h1, h2, ih]

@[simp] theorem modQuay_self (s : State) (p : Nat) (f : Quay → Quay) : (s.modQuay p f).quay p = f (s.quay p) := by
  simp [State.modQuay, State.setQuay, State.quay]

theorem modQuay_ne (s : State) {p n : Nat} (f : Quay → Quay) (h : n ≠ p) : (s.modQuay p f).quay n = s.quay n := by
  simp [State.modQuay, State.setQuay, State.quay, Tbl_get_set_ne _ _ _ h]

@[simp] theorem modPort_self (s : State) (l : Nat) (f : PortSt → PortSt) : (s.modPort l f).port l = f (s.port l) := by
  simp [State.modPort, State.port]

theorem modPort_ne (s : State) {l n : Nat} (f : PortSt → PortSt) (h : n ≠ l) : (s.modPort l f).port n = s.port n := by
  simp [State.modPort, State.port, Tbl_get_set_ne _ _ _ h]

theorem modLquay_eq {s : State} {l p : Nat} (h : s.phys l = some p) (f : Quay → Quay) : s.modLquay l f = s.modQuay p f := by
  simp [State.modLquay, h]

end Sys2Proof.Laws
end

