-- ==== Sys2Proof/Laws/Memory.lean ====
section
/-! SUPPORT. Memory: every operation keeps the canonical form, and what a write leaves alone. -/

namespace Sys2Proof.Laws

open Sys2Proof Sys2Proof.Machine

/-- Memory after reset is in canonical form: nothing is listed. -/
theorem reset_mem_wf : Memory.wf State.reset.mem := ⟨List.Pairwise.nil, by intro c hc; cases hc⟩

/-- The cells of a write lie in its span, rise, and are not 0. -/
theorem cells_mem {k n v : Nat} {c : Host.Cell} (h : c ∈ Memory.cells k n v) : k ≤ c.1 ∧ c.1 < k + n ∧ c.2 ≠ 0 := by
  simp only [Memory.cells, List.mem_filterMap, List.mem_range] at h
  obtain ⟨i, hi, h⟩ := h
  split at h
  · cases h
  · rename_i hb
    cases h
    exact ⟨by simp, by simpa using hi, hb⟩

theorem cells_sorted (k n v : Nat) : (Memory.cells k n v).Pairwise (fun a b => a.1 < b.1) := by
  unfold Memory.cells
  refine List.Pairwise.filterMap _ ?_ (List.pairwise_lt_range (n := n))
  intro i j hij a ha b hb
  dsimp only at ha hb
  split at ha
  · cases ha
  · split at hb
    · cases hb
    · cases ha
      cases hb
      exact Nat.add_lt_add_left hij k

/-- A write keeps the canonical form. -/
theorem write_wf {m : List Host.Cell} (h : Memory.wf m) (k n v : Nat) : Memory.wf (Memory.write m k n v) := by
  obtain ⟨hs, hz⟩ := h
  refine ⟨?_, ?_⟩
  · unfold Memory.write
    rw [List.append_assoc, List.pairwise_append, List.pairwise_append]
    refine ⟨hs.filter _, ⟨cells_sorted k n v, hs.filter _, ?_⟩, ?_⟩
    · intro a ha b hb
      have h1 := cells_mem ha
      have h2 : k + n ≤ b.1 := by simpa using (List.mem_filter.mp hb).2
      omega
    · intro a ha b hb
      have h1 : a.1 < k := by simpa using (List.mem_filter.mp ha).2
      rcases List.mem_append.mp hb with hb | hb
      · have h2 := cells_mem hb
        omega
      · have h2 : k + n ≤ b.1 := by simpa using (List.mem_filter.mp hb).2
        omega
  · intro c hc
    unfold Memory.write at hc
    rcases List.mem_append.mp hc with hc | hc
    · rcases List.mem_append.mp hc with hc | hc
      · exact hz c (List.mem_filter.mp hc).1
      · exact (cells_mem hc).2.2
    · exact hz c (List.mem_filter.mp hc).1

/-- Bytes put into memory keep the canonical form. -/
theorem poke_wf {s : State} (h : Memory.wf s.mem) (l addr n v : Nat) : Memory.wf (s.poke l addr n v).mem := write_wf h _ _ _

/-- A channel write keeps the canonical form. -/
theorem applyWrite_wf {s : State} (h : Memory.wf s.mem) (l addr : Nat) (d : McData) : Memory.wf (s.applyWrite l addr d).mem := by
  unfold State.applyWrite
  dsimp only
  split
  · exact poke_wf h _ _ _ _
  · split
    · exact poke_wf h _ _ _ _
    · exact poke_wf h _ _ _ _

/-- What a channel write changes: memory and its marks. -/
theorem applyWrite_frame (s : State) (l addr : Nat) (d : McData) :
    ∃ m p b, s.applyWrite l addr d = { s with mem := m, poisoned := p, badLines := b } := by
  unfold State.applyWrite
  dsimp only
  split
  · exact ⟨_, _, _, rfl⟩
  · split
    · exact ⟨_, _, _, rfl⟩
    · exact ⟨_, _, _, rfl⟩

/-- An issued read changes the quay's commands only. -/
theorem issueRead_frame (s : State) (l addr : Nat) (u : McUse) : ∃ q, s.issueRead l addr u = { s with quays := q } := by
  unfold State.issueRead State.modLquay
  split
  · exact ⟨_, rfl⟩
  · exact ⟨_, rfl⟩

theorem issueRead_wf {s : State} (h : Memory.wf s.mem) (l addr : Nat) (u : McUse) : Memory.wf (s.issueRead l addr u).mem := by
  obtain ⟨q, hq⟩ := issueRead_frame s l addr u
  rw [hq]
  exact h

/-- An issued write changes memory, its marks and the quay's commands. -/
theorem issueWrite_frame (s : State) (l addr : Nat) (mask : BitVec 128) (data : Line) (poison : Bool) (u : McUse) :
    ∃ q m p b, s.issueWrite l addr mask data poison u = { s with quays := q, mem := m, poisoned := p, badLines := b } := by
  unfold State.issueWrite
  split
  · exact ⟨_, _, _, _, rfl⟩
  · obtain ⟨m, p, b, h⟩ := applyWrite_frame s l (lineOf (addr % 2 ^ 40))
      { mask := mask, data := data, poison := poison, old := s.readLine l (lineOf (addr % 2 ^ 40)),
        oldPoison := s.isPoisoned l (lineOf (addr % 2 ^ 40)) }
    dsimp only
    rw [h]
    exact ⟨_, _, _, _, rfl⟩

theorem issueWrite_wf {s : State} (h : Memory.wf s.mem) (l addr : Nat) (mask : BitVec 128) (data : Line) (poison : Bool) (u : McUse) :
    Memory.wf (s.issueWrite l addr mask data poison u).mem := by
  unfold State.issueWrite
  split
  · exact h
  · exact applyWrite_wf h _ _ _

/-- A property that each step of a fold keeps holds after it. -/
theorem foldS_keeps {α σ : Type} {P : σ → Prop} {f : α → σ → σ} (hf : ∀ a s, P s → P (f a s)) :
    ∀ (l : List α) {s : σ}, P s → P (foldS l f s)
  | [], _, h => h
  | a :: l, _, h => foldS_keeps hf l (hf a _ h)

/-- Writing a structure keeps the canonical form. -/
theorem writeB_wf {s : State} (h : Memory.wf s.mem) (l addr n v : Nat) (u : McUse) : Memory.wf (s.writeB l addr n v u).mem :=
  foldS_keeps (P := fun s : State => Memory.wf s.mem) (fun _ _ h => issueWrite_wf h _ _ _ _ _ _) _ h

theorem ownWrite_wf {s : State} (h : Memory.wf s.mem) (l addr n v : Nat) : Memory.wf (s.ownWrite l addr n v).mem := writeB_wf h _ _ _ _ _

theorem zeroArea_wf {s : State} (h : Memory.wf s.mem) (l addr n : Nat) : Memory.wf (s.zeroArea l addr n).mem :=
  foldS_keeps (P := fun s : State => Memory.wf s.mem) (fun _ _ h => ownWrite_wf h _ _ _ _) _ h

end Sys2Proof.Laws
end

