-- ==== Sys2Proof/Laws/Event.lean ====
section
/-! SUPPORT. Counting an event and raising a record: what they may change, said once. -/

namespace Sys2Proof.Laws

open Sys2Proof Sys2Proof.Machine

/-- `t` is `s` but for what counters and records touch: quays, event state, the harbour ring, and memory with its marks. -/
def EvOnly (s t : State) : Prop :=
  ∃ q e r m p b, t = { s with quays := q, ev := e, ring := r, mem := m, poisoned := p, badLines := b }

theorem EvOnly.refl (s : State) : EvOnly s s := ⟨_, _, _, _, _, _, rfl⟩

theorem EvOnly.trans {a b c : State} (h : EvOnly a b) (h' : EvOnly b c) : EvOnly a c := by
  obtain ⟨_, _, _, _, _, _, rfl⟩ := h
  obtain ⟨_, _, _, _, _, _, rfl⟩ := h'
  exact ⟨_, _, _, _, _, _, rfl⟩

theorem evOnly_ev (s : State) (e : Ev) : EvOnly s { s with ev := e } := ⟨_, _, _, _, _, _, rfl⟩

theorem evOnly_modQuay (s : State) (p : Nat) (f : Quay → Quay) : EvOnly s (s.modQuay p f) := ⟨_, _, _, _, _, _, rfl⟩

theorem evOnly_setAlarm (s : State) (b : Nat) : EvOnly s (s.setAlarm b) := ⟨_, _, _, _, _, _, rfl⟩

theorem evOnly_ringPut (s : State) (p : Nat) (east : Bool) (f : RingFrame) : EvOnly s (s.ringPut p east f) := ⟨_, _, _, _, _, _, rfl⟩

theorem evOnly_ringSend (s : State) (p dst cls : Nat) (m : RingMsg) : EvOnly s (s.ringSend p dst cls m) := by
  unfold State.ringSend
  dsimp only
  split
  · exact EvOnly.refl s
  · exact evOnly_ringPut _ _ _ _

theorem evOnly_countP (s : State) (p ev k : Nat) (a : CntAttr) : EvOnly s (s.countP p ev k a) := by
  unfold State.countP
  split
  · exact EvOnly.refl s
  · dsimp only
    split
    · exact evOnly_modQuay _ _ _
    · exact (evOnly_modQuay _ _ _).trans (evOnly_ev _ _)

theorem evOnly_writeB (s : State) (l addr n v : Nat) (u : McUse) : EvOnly s (s.writeB l addr n v u) := by
  refine foldS_keeps (P := fun t => EvOnly s t) (fun a t h => h.trans ?_) _ (EvOnly.refl s)
  obtain ⟨q, m, p, b, hq⟩ := issueWrite_frame t l a (linePart addr n v a).1 (linePart addr n v a).2 false u
  exact ⟨q, t.ev, t.ring, m, p, b, hq⟩

theorem evOnly_evIrqTest (s : State) : EvOnly s s.evIrqTest := by
  unfold State.evIrqTest
  split
  · exact evOnly_ev _ _
  · exact EvOnly.refl s

theorem evOnly_evWrite (s : State) (r : EvRec) : EvOnly s (s.evWrite r) := by
  unfold State.evWrite
  exact ((evOnly_writeB _ _ _ _ _ _).trans (evOnly_writeB _ _ _ _ _ _)).trans ((evOnly_ev _ _).trans (evOnly_evIrqTest _))

theorem evOnly_evLose (s : State) (sev n : Nat) (gap : Bool) : EvOnly s (s.evLose sev n gap) := by
  unfold State.evLose
  have h : EvOnly s (if gap then { s with ev := { s.ev with gap := s.ev.gap.set sev (s.ev.gap.get 0 sev + 1) } } else s) := by
    split
    · exact evOnly_ev _ _
    · exact EvOnly.refl s
  dsimp only
  split
  · exact h.trans (evOnly_countP _ _ _ _ _)
  · exact h

theorem evOnly_evMiss (s : State) (r : EvRec) (gap : Bool) : EvOnly s (s.evMiss r gap) := evOnly_evLose _ _ _ _

theorem evOnly_sampleLeft (s : State) (r : EvRec) (n : Nat) : EvOnly s (s.sampleLeft r n) := evOnly_ev _ _

theorem evOnly_evCarry (s : State) (r : EvRec) (b : Bool) : EvOnly s (s.evCarry r b) := (evOnly_ev _ _).trans (evOnly_evWrite _ _)

theorem evOnly_leftLost (s : State) : EvOnly s s.leftLost := by
  unfold State.leftLost
  dsimp only
  split
  · exact evOnly_ev _ _
  · exact (evOnly_ev _ _).trans (evOnly_countP _ _ _ _ _)

theorem evOnly_evRing (s : State) (r : EvRec) : EvOnly s (s.evRing r) := by
  unfold State.evRing
  dsimp only
  split
  · exact evOnly_evMiss _ _ _
  · split
    · split
      · exact (evOnly_evMiss _ _ _).trans (evOnly_ev _ _)
      · exact ((evOnly_leftLost _).trans (evOnly_evMiss _ _ _)).trans (evOnly_ev _ _)
    · split
      · exact evOnly_sampleLeft _ _ _
      · split
        · split
          · exact (evOnly_sampleLeft _ _ _).trans (evOnly_countP _ _ _ _ _)
          · exact evOnly_evCarry _ _ _
        · split
          · exact evOnly_evWrite _ _
          · exact evOnly_evCarry _ _ _

theorem evOnly_evSend (s : State) (r : EvRec) : EvOnly s (s.evSend r) := (evOnly_ringSend _ _ _ _ _).trans (evOnly_evRing _ _)

theorem evOnly_evRoute (s : State) (home : Nat) (r : EvRec) (codes : List Nat) : EvOnly s (s.evRoute home r codes) := by
  unfold State.evRoute
  have h : EvOnly s (if 2 ≤ r.sev then s.modQuay home (fun q => { q with ev := q.ev.push r codes }) else s) := by
    split
    · exact evOnly_modQuay _ _ _
    · exact EvOnly.refl s
  refine h.trans ?_
  generalize (if 2 ≤ r.sev then s.modQuay home (fun q => { q with ev := q.ev.push r codes }) else s) = t
  dsimp only
  by_cases hr : t.evOpen = true
  · rw [if_pos hr]
    exact evOnly_evSend _ _
  · rw [if_neg hr]
    exact evOnly_modQuay _ _ _

theorem evOnly_stormEnd (s : State) (p : Nat) : EvOnly s (s.stormEnd p) := by
  unfold State.stormEnd
  dsimp only
  split
  · exact EvOnly.refl s
  · exact foldS_keeps (P := fun t => EvOnly s t) (fun a t h => h.trans (evOnly_evRoute _ _ _ _)) _ (evOnly_modQuay _ _ _)

/-- Raising a record changes nothing but quays, event state, the harbour ring and memory. -/
theorem evOnly_evRaise (s0 : State) (p home : Nat) (e : Evt) (sev a0 a1 nest : Nat) :
    EvOnly s0 (s0.evRaise p home e sev a0 a1 nest) := by
  unfold State.evRaise
  dsimp only
  refine (evOnly_stormEnd s0 p).trans ?_
  generalize s0.stormEnd p = s
  have h : ∀ t : State, EvOnly t (if (sev == 3) = true then whenSome e.alarmBit (fun b s => s.setAlarm b) t else t) := by
    intro t
    split
    · unfold whenSome
      split
      · exact EvOnly.refl t
      · exact evOnly_setAlarm _ _
    · exact EvOnly.refl t
  refine ((evOnly_countP s p 0x0E 1 {}).trans (h _)).trans ?_
  generalize (if (sev == 3) = true then whenSome e.alarmBit (fun b s => s.setAlarm b) (s.countP p 0x0E 1 {}) else s.countP p 0x0E 1 {}) = t
  by_cases hn : (t.quay p).ev.seen.get 0 e.code < max ((s.param? p .evtBurst).getD 8) 1
  · rw [if_pos hn]
    exact (evOnly_modQuay _ _ _).trans (evOnly_evRoute _ _ _ _)
  · rw [if_neg hn]
    exact ((evOnly_modQuay _ _ _).trans (evOnly_modQuay _ _ _)).trans (evOnly_countP _ _ _ _ _)

theorem evOnly_evQ (s : State) (p : Nat) (e : Evt) (args : List (Nat × Nat)) : EvOnly s (s.evQ p e args) := evOnly_evRaise _ _ _ _ _ _ _ _

theorem evOnly_evH (s : State) (e : Evt) (args : List (Nat × Nat)) : EvOnly s (s.evH e args) := evOnly_evQ _ _ _ _

theorem evOnly_evL (s : State) (l : Nat) (e : Evt) (args : List (Nat × Nat)) : EvOnly s (s.evL l e args) := by
  unfold State.evL
  split
  · exact EvOnly.refl s
  · exact evOnly_evQ _ _ _ _

/-- A refused register access changes the answer besides. -/
theorem regRefuse_frame (s : State) (p off : Nat) (acc : Acc) : ∃ t, EvOnly s t ∧ s.regRefuse p off acc = t.regAnswer 1 0 :=
  ⟨_, (evOnly_countP s p 0x29 1 _).trans (evOnly_evQ _ _ _ _), rfl⟩

end Sys2Proof.Laws
end

