-- ==== Sys2Proof/Tests/Slice0.lean ====
section
/-! SUPPORT. Tests: every check of WellFormed refuses an ill-formed term, single values of the manual come out, and the hypotheses of
each statement are met by a concrete state. -/

namespace Sys2Proof.Tests

open Sys2Proof Sys2Proof.Machine

set_option Elab.async false

/-! ## WellFormed refuses -/

def acc : Acc := { priv := true, master := 1 }
def hd : Hd := { src := 2, job := 5, epoch := 0, convoy := 0, quay := 0 }
def req : CpReq :=
  { pos := 0, lane := 0, tag := 7, addr := 0x1000, dev := 0, win := 0, mask := fullMask, data := 0, crcv := false, crc := 0, poison := false,
    fmt := 0, attr := 0, flag := false, aop := 0, atype := 0, noret := false, priv := true, master := 0 }
def salv : SalvMsg :=
  { hd := hd, stripe := 0, audit := false, mark := 0, no := 0, lines := [], pos := 0, bad := false, home := 0, lost := [], chain := [], sums := [] }
def img : ImgMsg := { src := 2, job := 5, epoch := 1, piece := 0, data := 0 }
def port0 : CharterPort :=
  { spi := some { sig := 0x50444653, mbit := 128, io144 := true, io114 := true, quad := none, erase := some 0x20 }, i2c := false, copyA := 0, copyB := 0 }
def areq : AnchorReq := { hd := hd, stripe := 0, j := 0, restore := [] }
def aans : AnchorAns :=
  { hd := hd, stripe := 0, didx := 0, j := 0, mark := 0, ret := [], lcrc := List.replicate 32 0, piece := List.replicate 32 0 }

theorem test_wf_tide : (Instr.tideCount (2 ^ 64)).wf = false := by decide +kernel
theorem test_wf_position : (Instr.mcTimeout 16).wf = false := by decide +kernel
theorem test_wf_quay : (Instr.heartbeatMissed 20).wf = false := by decide +kernel
theorem test_wf_register_range : (Instr.registerLoRead (2 ^ 23) acc).wf = false := by decide +kernel
theorem test_wf_register_word : (Instr.registerWrite 2 acc 0).wf = false := by decide +kernel
theorem test_wf_master : (Instr.hBatchOpen { priv := true, master := 256 }).wf = false := by decide +kernel
theorem test_wf_key : (Instr.pwrReqRun acc (2 ^ 32)).wf = false := by decide +kernel
theorem test_wf_frame_vc : (Instr.taint 0 { vc := 8, hdr := 0, len := 64, pkt := 0 }).wf = false := by decide +kernel
theorem test_wf_frame_empty : (Instr.taint 0 { vc := 0, hdr := 0, len := 0, pkt := 0 }).wf = false := by decide +kernel
theorem test_wf_frame_long : (Instr.taint 0 { vc := 0, hdr := 0, len := 6145, pkt := 0 }).wf = false := by decide +kernel
theorem test_wf_frame_packet : (Instr.taint 0 { vc := 0, hdr := 0, len := 1, pkt := 256 }).wf = false := by decide +kernel
theorem test_wf_request_lane : (Instr.cpRead { req with lane := 4 }).wf = false := by decide +kernel
theorem test_wf_request_tag : (Instr.cpRead { req with tag := 2 ^ 16 }).wf = false := by decide +kernel
theorem test_wf_request_addr : (Instr.cpRead { req with addr := 2 ^ 40 }).wf = false := by decide +kernel
theorem test_wf_request_window : (Instr.cpRead { req with dev := 2 ^ 20 }).wf || (Instr.cpRead { req with win := 16 }).wf = false := by decide +kernel
theorem test_wf_request_code : (Instr.cpRead { req with crc := 2 ^ 32 }).wf || (Instr.cpRead { req with fmt := 16 }).wf = false := by decide +kernel
theorem test_wf_request_atomic : (Instr.cpRead { req with aop := 16 }).wf || (Instr.cpRead { req with atype := 16 }).wf = false := by decide +kernel
theorem test_wf_request_attr : (Instr.cpRead { req with attr := 4 }).wf || (Instr.cpRead { req with master := 256 }).wf = false := by decide +kernel
theorem test_wf_answer : (Instr.mcWriteAck 0 4096 0).wf || (Instr.mcWriteAck 0 0 4).wf = false := by decide +kernel
theorem test_wf_message : (Instr.anchorRequest 0 { areq with hd := { hd with src := 2 ^ 20 } }).wf = false := by decide +kernel
theorem test_wf_message_convoy : (Instr.streamReset 0 { areq with hd := { hd with convoy := 16 } }).wf = false := by decide +kernel
theorem test_wf_anchor : (Instr.anchorRequest 0 { areq with stripe := 2 ^ 32 }).wf || (Instr.anchorRequest 0 { areq with j := 4 }).wf ||
    (Instr.streamReset 0 { areq with only := some (2 ^ 32) }).wf = false := by decide +kernel
theorem test_wf_piece : (Instr.anchorAnswer 0 { aans with piece := [] }).wf || (Instr.anchorAnswer 0 { aans with lcrc := [] }).wf = false := by decide +kernel
theorem test_wf_reset_answer : (Instr.streamResetAnswer 0 { hd := { hd with quay := 16 }, mark := 0, stripes := [] }).wf = false := by decide +kernel
theorem test_wf_salvage : (Instr.frozen 0 { salv with lines := [32] }).wf || (Instr.frozen 0 { salv with home := 2 ^ 20 }).wf = false := by decide +kernel
theorem test_wf_image : (Instr.jobImagePiece { img with job := 2 ^ 16 }).wf || (Instr.jobImagePiece { img with piece := 2 ^ 32 }).wf ||
    (Instr.jobImagePiece { img with epoch := 2 ^ 32 }).wf = false := by decide +kernel
theorem test_wf_charter : (Instr.startUp { port0 with spi := port0.spi.map (fun d => { d with erase := some 256 }) } []).wf ||
    (Instr.startUp { port0 with spi := port0.spi.map (fun d => { d with sig := 2 ^ 32 }) } []).wf || (Instr.startUp port0 [20]).wf = false := by decide +kernel
theorem test_wf_fault : (Instr.optimizerBucket 0 [{ quay := 0, line := 0, elem := 64, residue := false }]).wf = false := by decide +kernel
theorem test_wf_item : (Instr.atomicAdd 0 { vc := 5, hdr := 0, len := 80, pkt := 0 } 128).wf = false := by decide +kernel
theorem test_wf_tag : (Instr.tombstoneExpiry (2 ^ 16)).wf || (Instr.collIdle (2 ^ 32)).wf = false := by decide +kernel
theorem test_wf_step : (Instr.voteReport 0 (2 ^ 48)).wf || (Instr.numericsShare (2 ^ 48)).wf = false := by decide +kernel
theorem test_wf_unit : (Instr.knownAnswerRun { fails := [(0, 16)], errs := [] }).wf || (Instr.knownAnswerRun { fails := [], errs := [(20, 1)] }).wf || (Instr.marginHoldExpiry 0 16).wf = false := by decide +kernel
theorem test_wf_grade : (Instr.pilotGradeChange 8).wf = false := by decide +kernel
theorem test_wf_credit : (Instr.ppFlitCredit 0 8).wf || (Instr.hrFlitCredit 0 true 0).wf || (Instr.hrFlitCredit 0 true 7).wf = false := by decide +kernel
theorem test_wf_accepts : ((Instr.cpRead req).wf && (Instr.anchorAnswer 0 aans).wf && (Instr.registerWrite 0x54 acc 0).wf) = true := by decide +kernel

/-! ## Values of the manual -/

/-- R327: the check value of the nine bytes "123456789". -/
theorem test_crc_check_value : crc32c [0x31, 0x32, 0x33, 0x34, 0x35, 0x36, 0x37, 0x38, 0x39] = 0xE3069283 := by decide +kernel
/-- R71: x^7 times x is x^4 + x^3 + x^2 + 1. -/
theorem test_gf_wraps : gfMul 0x80 2 = 0x1D := by decide +kernel
/-- R72: the first row of the generator is all ones. -/
theorem test_generator_first_row : (List.range 30).all (fun i => gen 0 i == 1) = true := by decide +kernel
/-- R81: 0 is later than 2^32 - 1, and a value is not later than itself. -/
theorem test_seq_wraps : Seq.later 0 0xFFFFFFFF && !Seq.later 5 5 && !Seq.later 0xFFFFFFFF 0 = true := by decide +kernel
/-- R477: H_VERSION of release 3.1. -/
theorem test_version : (State.reset.regRead 0 acc).regOut = some { resp := 0, rdata := 0x00030001 } := by decide +kernel
/-- R264: a 32-bit sum wraps, and the signed minimum of -1 and 1 is -1. -/
theorem test_atomic_values : atomNew 1 1 0xFFFFFFFF 2 0 = 1 ∧ atomNew 2 1 0xFFFFFFFF 1 0 = 0xFFFFFFFF := by decide +kernel
/-- R265: 1.0 + 1.0 = 2.0, and infinity minus infinity is the canonical NaN. -/
theorem test_f32_values : f32Add 0x3F800000 0x3F800000 = 0x40000000 ∧ f32Add 0x7F800000 0xFF800000 = 0x7FC00000 := by decide +kernel
/-- R40: an event of period 4 and phase 3 falls due between tides 2 and 3, and not between 3 and 6. -/
theorem test_falls : falls 2 3 2 3 = true ∧ falls 2 3 3 6 = false := by decide +kernel
/-- R378: a counter at 2^48 - 1 wraps to 0 and sets its bit. -/
theorem test_counter_wraps : (Cnt.add { live := [(3, 2 ^ 48 - 1)] } 3 1).live.get 1 3 = 0 ∧ (Cnt.add { live := [(3, 2 ^ 48 - 1)] } 3 1).wrap = 8 := by
  decide +kernel
/-- R427: BYPASS selects code 0xFF and IDCODE loads an odd word. -/
theorem test_idcode : State.reset.idcodeWord % 2 = 1 := by decide +kernel
/-- R8: bytes are little-endian in memory. -/
theorem test_little_endian : Memory.write [] 5 2 0x0102 = [(5, 2), (6, 1)] := by decide +kernel
/-- R78: a delta of one lane packs as a bitmap and one lane. -/
theorem test_compress_lane : (compress 0x8000).code = 2 ∧ (compress 0x8000).plen = 10 := by decide +kernel

/-! ## States that meet the statements' hypotheses -/

def quayOn : Quay := { enabled := true, inService := true, lq := some 0 }
def ready : State :=
  { State.reset with quays := [(0, quayOn)], tide := { started := true, now := 1000, est := 1000 }, boot := { phase := 5 },
                     ident := { device := 1 }, sec := { state := .maintenance, presence := true, loop := true } }
def working : State := { ready with job := { tag := 5, phase := .ready } }
def sleeping : State := { ready with pwr := { state := .hold } }
def off : State := { ready with pwr := { off := true } }
def dueOf (e : DueEv) : State := { ready with man := { due := [e] } }

/-- A frame from device 2 to logical quay 0 of device 1. -/
def frame (vc len pkt : Nat) : Frame :=
  { vc := vc, hdr := BitVec.ofNat 128 (withCrc 16 (pack [(20, 1), (4, 0), (4, 0), (4, 0), (20, 2), (4, 0), (3, vc), (5, 0), (16, len)])),
    len := len, pkt := pkt }
def lhdr (type : Nat) : LHdr :=
  { type := type, resend := 0, undo := 0, relief := 0, didx := 0, convoy := 0, quay := 0, src := 2, job := 5, epoch := 0, step := 0, stripe := 0,
    lseq := 0, mask := 0, bodyLen := 0, dpos := 0, j := 0 }
def lighter : Frame := frame 1 40 (lhdr 1).enc
def vote (kind : Nat) : Frame := frame 1 96 ((lhdr 2).enc + kind <<< 320)
def ackOf (status : Nat) : Frame :=
  frame 2 32 (LAck.enc { type := 8, status := status, quay := 0, holder := 2, job := 5, epoch := 0, lseq := 0 })
def fence (kind : Nat) : Frame := frame 0 64 (withCrc 64 (pack [(16, kind), (16, 5), (32, 0), (20, 2)]))
def coll (vc kind : Nat) : Frame :=
  frame vc 32 (CHdr.enc { kind := kind, nlines := 0, job := 5, epoch := 0, cseq := 0, gid := 0, srcq := 0, dstq := 0, sidx := 0, off := 0, ldig := 0 })
def rhdr (kind dst : Nat) : RHdr :=
  { kind := kind, resend := false, nitem := 1, job := 5, epoch := 0, src := 2, srcq := 0, dstq := 0, dst := dst, win := 0, rseq := 0, low := 0, itide := 0 }
def remote (kind op : Nat) : Frame := frame 5 (48 + itemSize kind) ((rhdr kind 1).enc + (op <<< 40) <<< 384)
def answer (kind : Nat) : Frame := frame 6 48 (RHdr.enc { rhdr kind 2 with src := 1 })
def refresh (kind : Nat) : Frame :=
  frame 1 48 (RfHdr.enc { rkind := kind, full := false, direct := true, job := 5, epoch := 0, src := 2, srcq := 0, entry := 0, version := 0 })
def lockAns (kind : Nat) : Frame := frame 7 32 kind
def cmd (tag : Nat) (wr : Option McData) : McCmd := { tag := some tag, addr := 0x1000, wr := wr, use := .own, since := 0 }
def data0 : McData := { mask := fullMask, data := 1, poison := false, old := 0, oldPoison := false }
def reading : State :=
  { ready with quays := [(0, { quayOn with mc := [cmd 3 none, cmd 4 (some data0)] })], tide := { started := true, now := 2 ^ 60 } }
def inval (epoch : Nat) : Entry := BitVec.ofNat 1024 (withCrc 128 (pack [(16, 0xD), (80, 0), (32, epoch), (128, 0), (8, 1)]))

theorem witness_QueueAdvances : { ready with pending := [.tideCount 1001] }.pending = .tideCount 1001 :: [] ∧ Completes (step { ready with pending := [.sealLoopRestore] }) :=
  ⟨rfl, _, rfl⟩
theorem witness_IntegrationKept : { ready with pending := [.sealLoopRestore] }.fit.ok = true ∧ Completes (step { ready with pending := [.sealLoopRestore] }) :=
  ⟨by decide +kernel, _, rfl⟩
theorem witness_OffIgnores : off.pwr.off = true ∧ (∀ a b, Instr.heartbeatSend 0 ≠ .qreset a b) ∧ Instr.heartbeatSend 0 ≠ .supplyRemoved :=
  ⟨rfl, fun _ _ h => Instr.noConfusion h, fun h => Instr.noConfusion h⟩
theorem witness_ComputePortRuns : ready.Powered ∧ ready.HasPort req.pos ∧ req.lane < 4 ∧ ready.cpLost req.pos = false ∧ ready.cpStalls 1 req = false ∧
    (ready.lquay req.pos).rmt.oot.length < 16384 ∧ cpCrcBad req = false ∧ ready.pwr.state = .run := by unfold State.Powered State.HasPort; decide +kernel
theorem witness_ChannelPortAnswers : reading.Powered ∧ reading.HasPort 0 ∧ reading.mcFind 0 3 false = some (cmd 3 none) ∧
    reading.mcFind 0 4 true = some (cmd 4 (some data0)) ∧
    (reading.lquay 0).mc.any (fun c => c.tag.isSome && reading.passed c.since (reading.lpar 0 .mcTimeoutT)) = true := by
  unfold State.Powered State.HasPort; decide +kernel
theorem witness_PortTimersRun : ready.Powered ∧ ready.HasPort 0 ∧ ready.HasPort 11 ∧ ¬ ready.HasPort 12 := by
  unfold State.Powered State.HasPort; decide +kernel
theorem witness_HarbourTimersRun : ready.Powered := rfl
def watched : State := { ready with quays := [(0, quayOn), (1, { quayOn with lq := some 1, hb := 3 })] }
theorem witness_ReliefRuns : watched.Powered ∧ (watched.quay 1).inService = true ∧ watched.pwr.state ≠ .hold ∧ (watched.watcher 1).isSome = true ∧
    3 ≤ (watched.quay 1).hb := by unfold State.Powered; decide +kernel
theorem witness_DueEventsRun : (dueOf .vote).DueHead .vote [] ∧ (dueOf .lock).DueHead .lock [] ∧ (dueOf .kat).DueHead .kat [] ∧
    (dueOf (.dredge 0)).DueHead (.dredge 0) [] ∧ (dueOf .flush).DueHead .flush [] := by unfold State.DueHead; decide +kernel
theorem witness_ScanTideRuns_scan : (dueOf .scan).DueHead .scan [] ∧ ((dueOf .scan).withDue []).scanBegin.boot.warmReq = false ∧
    ((dueOf .scan).withDue []).scanBegin.gradeScan.pwr.state ≠ .idle := by unfold State.DueHead; decide +kernel
theorem witness_ScanTideRuns_power : ((dueOf .scan).withDue []).scanBegin.pwrTake = ((dueOf .scan).withDue []).scanBegin := by decide +kernel
theorem witness_ScanTideRuns_held : (dueOf .held).DueHead .held [] ∧ (dueOf .held).boot.phase = 5 ∧ ((dueOf .held).withDue []).allEnabled = true := by
  unfold State.DueHead; decide +kernel
def warming : State := { dueOf .scan with boot := { phase := 5, warmReq := true } }
theorem witness_ScanTideRuns_warm : warming.DueHead .scan [] ∧ warming.boot.phase ≠ 7 ∧ (warming.withDue []).secScan.boot.warmReq = true ∧
    (warming.withDue []).scanBegin.boot.warmReq = true ∧ { ready with boot := { phase := 7 } : State }.boot.phase = 7 := by unfold State.DueHead; decide +kernel
def launchOf (op : Nat) : Held :=
  { ring := false, idx := 0, effect := 0, entry := BitVec.ofNat 1024 (pack [(16, 8), (256, 0), (8, op), (8, 0), (32, 9)]) }
def launching (op : Nat) : State := { ready with man := { due := [.launch 9], held := [launchOf op] } }
theorem witness_LaunchesRun : ∀ op ∈ [1, 2, 3], (launching op).DueHead (.launch 9) [] ∧
    ((launching op).heldLaunch 9).map (fun h => byt h.entry.toNat 34 34) = some op := by unfold State.DueHead; decide +kernel
theorem witness_ManifestsAct : manRow (inval 0) [] = some (.remoteReadCacheInvalidate (inval 0)) ∧ ready.TakesManifests (inval 0) ∧
    ready.manCheck (manType (inval 0).toNat == 3) (manSeq (inval 0).toNat) (inval 0).toNat true = 0 ∧ manEffect (inval 0).toNat = 0 ∧
    ready.man.held.length < 1024 ∧ (match ready.manAct (inval 0).toNat 0 [] with
      | .done _ => true
      | _ => false) = true := by unfold State.TakesManifests State.Powered; decide +kernel
/-- A manifest with a TYPE, a JOB, a STEP, an EFFECT and payload fields by their lowest bit, and states for the clauses about one. -/
def man (ty job st effect : Nat) (fs : List (Nat × Nat)) : Entry :=
  BitVec.ofNat 1024 (withCrc 128 (fs.foldl (fun a x => a + x.2 <<< x.1) (ty + job <<< 64 + effect <<< 128 + st <<< 192)))
def region (kind base size fmt tag : Nat) : List (Nat × Word) :=
  [(0x1000, BitVec.ofNat 32 (2 ^ 31 + kind * 2 ^ 28 + base)), (0x1004, BitVec.ofNat 32 (fmt * 2 ^ 28 + size)), (0x1008, BitVec.ofNat 32 (tag * 2 ^ 20))]
def withRegion (s : State) (r : List (Nat × Word)) : State := { s with quays := [(0, { quayOn with qcfg := r })] }
def withBytes (s : State) (a n v : Nat) : State := { s with mem := Memory.write s.mem a n v }
def listed (a b : Nat) : State := withBytes { working with job := { working.job with roster := [(a, 0), (b, 0)] } } 0x8000 8 (2 ^ 32)
def forGen : State := { ready with quays := [(0, { quayOn with params := (ready.required 0 true).map (fun x => (x, { val := 0, src := .quay })) })] }
def tagged : State :=
  { withRegion working (region 1 1 1 2 7) with steps := { last := 1 }, opt := { descs := [(7, Desc.ofMan (man 9 5 0 0 [(272, 1)]).toNat)] } }
def layers : Nat := 7 + 7 <<< 16 + 1 <<< 64
def scheduled : State := withBytes { withRegion { working with ident := { device := 1, gen := true } } (region 4 0x100 1 3 7) with job := working.job } 0x8000 22 layers
def order : Nat := 1 <<< 32 + (1 <<< 96) <<< 64
def holding : State := withBytes (withRegion ready (region 6 0x100 16 0 1)) 0x8000 24 order
def withLocker : State := { working with quays := [(0, { quayOn with params := [(.lockerDev, { val := 9, src := .quay })] })] }

def manStart : Entry := man 1 5 1 0 []
def manClose : Entry := man 1 5 1 0 [(416, 1)]
def manAbort : Entry := man 2 5 1 0 [(256, 0x42)]
def manFails : Entry := man 3 5 0 0 [(256, 1), (288, 1), (320, 3), (344, 0xFFFFF)]
def manPlace : Entry := man 3 5 0 0 [(256, 2), (288, 1), (320, 3), (344, 4)]
def manBegin : Entry := man 4 0 0 0 [(256, 5), (288, 1), (704, 1)]
def manDown : Entry := man 5 5 0 0 []
def manRole (r : Nat) : Entry := man 6 0 0 0 [(256, r)]
def manDelete : Entry := man 7 5 0 0 [(256, 3)]
def manDefine : Entry :=
  man 7 5 0 0 [(256, 3), (272, 1), (280, 1), (288, 2), (312, 2), (320, 0x8000), (384, crc32c [0, 0, 0, 0, 1, 0, 0, 0])]
def manCast : Entry := man 8 5 0 0 [(256, 3), (272, 1), (288, 9), (320, 2000), (400, 1), (404, 1), (416, 64)]
def manDesc (kind : Nat) : Entry := man 9 5 0 0 [(256, 7), (272, kind), (288, 0x8008), (320, 0x8009)]
def manBkt : Entry := man 0xA 5 1 0 [(256, 7), (320, 1)]
def manLayers : Entry := man 0xB 5 0 0 [(256, 0x8000), (320, 1), (336, 1), (352, 1), (384, crcOf 22 layers)]
def manOrder : Entry := man 0xC 0 0 0 [(256, 0x8000), (320, 1), (336, 1), (384, crcOf 24 order)]
def manScope (k : Nat) : Entry := man 0xD 0 0 0 [(256, k), (384, if k = 3 then 1 else 0)]
def manCold : Entry := man 0xE 5 0 1000 [(256, 1)]
def manConfirm : Entry := man 0xE 5 0 1000 [(256, 2), (272, 6)]
def confirming : State := { working with locker := { slots := [(0, { gen := 1, step := 6 })] } }
def manStop (ty : Nat) : Entry := man ty 5 0 0 [(256, 3)]

theorem witness_ManifestsAct_reads : ∀ e ∈ [(working, manStart), (working, manClose), (working, manAbort), (working, manFails), (working, manPlace), (ready, manBegin),
    (working, manDown), (ready, manRole 0), (forGen, manRole 1), (working, manDelete), (listed 1 2, manDefine), (listed 3 2, manDefine), (working, manCast)],
    State.ReadsManifest e.1 e.2 := by unfold State.ReadsManifest State.TakesManifests State.Powered; decide +kernel
theorem witness_ManifestsAct_reads2 : ∀ e ∈ [(working, manDesc 0), (working, manDesc 1), (tagged, manBkt), (scheduled, manLayers), (holding, manOrder), (ready, manScope 1), (ready, manScope 2),
    (ready, manScope 3), (working, manCold), (withLocker, manCold), (confirming, manConfirm), (working, manStop 0xF), (working, manStop 0x10)],
    State.ReadsManifest e.1 e.2 := by unfold State.ReadsManifest State.TakesManifests State.Powered; decide +kernel
theorem witness_ManifestsAct_rows : manRow (manScope 1) [] = some (.remoteReadCacheInvalidate (manScope 1)) ∧ manRow (man 0xD 0 0 2000 [(256, 1)]) [] = some (.remoteReadCacheInvalidate (man 0xD 0 0 2000 [(256, 1)])) ∧
    ready.TakesManifests (man 0xD 0 0 2000 [(256, 1)]) ∧ ready.manCheck false 0 (man 0xD 0 0 2000 [(256, 1)]).toNat true = 0 ∧ ready.tide.now < manEffect (man 0xD 0 0 2000 [(256, 1)]).toNat := by
  unfold State.TakesManifests State.Powered; decide +kernel
theorem witness_ManifestsAct_steps : working.ident.gen = false ∧ working.job.phase = .ready ∧ manStep manStart.toNat = working.steps.last + 1 ∧ working.opt.shares = [] ∧
    working.steps.recs = [] ∧ working.refr.running = [] ∧ byt manStart.toNat 39 32 = working.steps.expCursor ∧ bitOf manStart.toNat 416 = false ∧ bitOf manClose.toNat 416 = true ∧
    byt manClose.toNat 43 40 = 0 ∧ working.stepRec 1 = none ∧ working.steps.anyMoored = false ∧ working.wasAborted 1 = false := by decide +kernel
def opened : State := { working with steps := { recs := [{ no := 1 }] } }
theorem witness_ManifestsAct_abort : opened.ReadsManifest manAbort ∧ opened.stepRec 1 = some { no := 1 } := by
  unfold State.ReadsManifest State.TakesManifests State.Powered; decide +kernel
theorem witness_ManifestsAct_job : verdictBad manFails.toNat = false ∧ verdictBad manPlace.toNat = false ∧ manEpoch manFails.toNat = working.job.epoch ∧ byt manFails.toNat 39 36 = 1 ∧
    fld manFails.toNat 259 256 = 1 ∧ byt manPlace.toNat 39 36 = 1 ∧ manEpoch manPlace.toNat = 0 ∧ fld manPlace.toNat 259 256 = 2 ∧ ready.job.phase = .none ∧ ready.sb.stopped = false ∧ ready.crw.state = 0 ∧
    jobStartBad manBegin.toNat = false ∧ manEpoch manBegin.toNat = 0 ∧ ready.job.tombs = [] ∧ byt manDown.toNat 119 32 = 0 ∧ working.jobOn = true ∧ working.job.tag = manJob manDown.toNat := by decide +kernel
theorem witness_ManifestsAct_role : byt (manRole 0).toNat 119 32 = 0 ∧ byt (manRole 1).toNat 119 33 = 0 ∧ byt (manRole 1).toNat 32 32 = 1 ∧ ready.ident.gen = false ∧ forGen.ident.gen = false ∧
    forGen.roleBoundary = true ∧ forGen.roleBad true = false := by decide +kernel
theorem witness_ManifestsAct_group : working.groupBusy 3 = false ∧ byt manDelete.toNat 34 34 = 0 ∧ byt manDefine.toNat 34 34 = 1 ∧ byt manDefine.toNat 47 40 % 128 = 0 ∧ fld manDefine.toNat 305 288 = 2 ∧
    (∀ s ∈ [listed 1 2, listed 3 2], s.groupBusy 3 = false ∧ s.groupLines 0x8000 2 = true ∧
      s.groupBad (byt manDefine.toNat 35 35) 2 (byt manDefine.toNat 39 39) (byt manDefine.toNat 51 48) (s.groupList 0x8000 2) = false) ∧
    (listed 3 2).groupMe 2 ((listed 3 2).groupList 0x8000 2) = none ∧ (listed 1 2).groupMe 2 ((listed 1 2).groupList 0x8000 2) = some 0 ∧
    ((listed 1 2).poolRoom 3 8).isSome = true := by decide +kernel
theorem witness_ManifestsAct_launch : (Launch.ofMan manCast.toNat).fieldsBad working.fit.nActive = none ∧ working.launches = [] ∧ working.coll.ended = [] ∧
    working.tide.now < (Launch.ofMan manCast.toNat).ltide ∧ manEffect manCast.toNat = 0 := by decide +kernel
theorem witness_ManifestsAct_optimizer : (Desc.ofMan (manDesc 0).toNat).kind = 0 ∧ (Desc.ofMan (manDesc 1).toNat).kind = 1 ∧
    working.descCheck 7 (Desc.ofMan (manDesc 1).toNat) (bitOf (byt (manDesc 1).toNat 41 40) 15) = none ∧ tagged.bucketCheck manBkt.toNat = none ∧ tagged.ident.gen = false := by decide +kernel
theorem witness_ManifestsAct_tables : scheduled.ident.gen = true ∧ (scheduled.schedOf manLayers.toNat).isSome = true ∧ (holding.orderTable manOrder.toNat).isSome = true := by decide +kernel
theorem witness_ManifestsAct_cache : byt (manScope 1).toNat 32 32 = 1 ∧ byt (manScope 2).toNat 32 32 = 2 ∧ byt (manScope 3).toNat 32 32 = 3 ∧ byt (manScope 3).toNat 44 40 = 0 ∧
    byt (manScope 3).toNat 51 48 = 1 := by decide +kernel
def mooredOnce : State := { withLocker with steps := { anyMoored := true } }
theorem witness_ManifestsAct_flush : manEffect manCold.toNat ≠ 0 ∧ byt manCold.toNat 32 32 = 1 ∧ byt manCold.toNat 39 34 = 0 ∧ byt manCold.toNat 47 40 = 0 ∧ working.kindOf 0 0 = 0 ∧ working.locker.flush = none ∧
    working.hpar .lockerDev = 0xFFFFF ∧ withLocker.hpar .lockerDev ≠ 0xFFFFF ∧ withLocker.steps.anyMoored = false ∧ withLocker.talliesBefore 1000 = [] ∧ mooredOnce.ReadsManifest manCold ∧
    mooredOnce.hpar .lockerDev ≠ 0xFFFFF ∧ byt manConfirm.toNat 32 32 = 2 ∧ (confirming.locker.slots.find? (fun e => e.2.step == byt manConfirm.toNat 39 34)) = some (0, { gen := 1, step := 6 }) ∧
    parkBad (manStop 0xF).toNat = false ∧ parkBad (manStop 0x10).toNat = false := by
  unfold State.ReadsManifest State.TakesManifests State.Powered; decide +kernel
theorem witness_ManifestsRejected : manRow (inval 1) [] = some (.remoteReadCacheInvalidate (inval 1)) ∧ ready.TakesManifests (inval 1) ∧
    ready.manCheck (manType (inval 1).toNat == 3) (manSeq (inval 1).toNat) (inval 1).toNat true = 6 := by
  unfold State.TakesManifests State.Powered; decide +kernel

theorem witness_job : (working.onFrame 0 lighter).JobTraffic 5 2 ∧ working.wake.JobTraffic 5 2 ∧ hd.epoch = working.wake.job.epoch ∧ ({ img with epoch := 0 } : ImgMsg).epoch = working.wake.job.epoch := by
  unfold State.JobTraffic; decide +kernel
theorem witness_ConvoyFramesAct_lighter : working.Powered ∧ working.Takes 0 1 lighter ∧ pktKind lighter = 1 ∧ crcOk 40 (lighter.pkt % 2 ^ 320) = true ∧
    (LHdr.dec lighter.pkt).job = 5 ∧ lighter.src = 2 := by unfold State.Powered State.Takes State.HasPort; decide +kernel
theorem witness_ConvoyFramesAct_ack : ∀ st ∈ [0, 6], working.Takes 0 2 (ackOf st) ∧ (ackOf st).len = 32 ∧ crcOk 32 ((ackOf st).pkt % 2 ^ 256) = true ∧
    (working.onFrame 0 (ackOf st)).JobTraffic (LAck.dec (ackOf st).pkt).job (ackOf st).src ∧ (LAck.dec (ackOf st).pkt).status = st := by
  unfold State.Takes State.HasPort State.JobTraffic; decide +kernel
theorem witness_ConvoyFramesAct_vote : ∀ k ∈ [1, 2, 3, 4], working.Takes 0 1 (vote k) ∧ pktKind (vote k) = 2 ∧ frameVkind (vote k) = k := by
  unfold State.Takes State.HasPort; decide +kernel
theorem witness_FenceFramesAct : ∀ k ∈ [1, 2, 3, 4], working.Takes 0 0 (fence k) ∧ (fence k).len = 64 ∧ crcOk 64 ((fence k).pkt % 2 ^ 512) = true ∧
    (working.onFrame 0 (fence k)).JobTraffic (fld (fence k).pkt 31 16) (fence k).src ∧ pktKind (fence k) = k := by
  unfold State.Takes State.HasPort State.JobTraffic; decide +kernel
theorem witness_CollectiveFramesAct : ∀ e ∈ [(3, 1), (3, 3), (3, 4), (4, 2), (4, 5), (4, 6)], working.Takes 0 e.1 (coll e.1 e.2) ∧
    crcOk 32 ((coll e.1 e.2).pkt % 2 ^ 256) = true ∧
    (working.onFrame 0 (coll e.1 e.2)).JobTraffic (CHdr.dec (coll e.1 e.2).pkt).job (coll e.1 e.2).src ∧ pktKind (coll e.1 e.2) = e.2 := by
  unfold State.Takes State.HasPort State.JobTraffic; decide +kernel
theorem witness_RemoteFramesAct : ∀ e ∈ [(1, 0), (2, 0), (3, 1), (3, 2), (3, 3), (3, 4)], working.Takes 0 5 (remote e.1 e.2) ∧
    (RHdr.dec (remote e.1 e.2).pkt).job ≠ 0 ∧ (RHdr.dec (remote e.1 e.2).pkt).src = 2 ∧
    (working.onFrame 0 (remote e.1 e.2)).JobTraffic (RHdr.dec (remote e.1 e.2).pkt).job 2 ∧ pktKind (remote e.1 e.2) = e.1 ∧
    rmtReqOk (remote e.1 e.2) e.1 = true ∧ 0 < (RHdr.dec (remote e.1 e.2).pkt).nitem ∧
    (e.1 = 3 → fld (reqItem (remote e.1 e.2).pkt 3 0) 43 40 = e.2) := by
  unfold State.Takes State.HasPort State.JobTraffic; decide +kernel
theorem witness_RemoteAnswersAct : ∀ k ∈ [9, 0xA, 0xB], working.Takes 0 6 (answer k) ∧ (RHdr.dec (answer k).pkt).job ≠ 0 ∧
    (working.onFrame 0 (answer k)).JobTraffic (RHdr.dec (answer k).pkt).job (answer k).src ∧ pktKind (answer k) = k := by
  unfold State.Takes State.HasPort State.JobTraffic; decide +kernel
theorem witness_RefreshFramesAct : ∀ k ∈ [1, 2, 3], working.Takes 0 1 (refresh k) ∧ working.isFenced (refresh k).src = false ∧ pktKind (refresh k) = 3 ∧
    refrOk (refresh k) (RfHdr.dec (refresh k).pkt).rkind = true ∧
    (working.onFrame 0 (refresh k)).JobTraffic (RfHdr.dec (refresh k).pkt).job (RfHdr.dec (refresh k).pkt).src ∧ (RfHdr.dec (refresh k).pkt).rkind = k := by
  unfold State.Takes State.HasPort State.JobTraffic; decide +kernel
theorem witness_LockerFramesAct : ∀ k ∈ [9, 0xA], working.Takes 0 7 (lockAns k) ∧ pktKind (lockAns k) = k := by
  unfold State.Takes State.HasPort; decide +kernel
theorem witness_MessagesAct : working.Powered ∧ working.Hears 0 ∧ areq.stripe < 0xFFFFFFFF ∧ areq.restore = [] ∧ salv.chain = [] ∧
    ({ areq with restore := [3] } : AnchorReq).restore ≠ [] ∧ working.wake.liveStep 3 = false ∧ salv.bad = false ∧ { salv with bad := true }.bad = true ∧
    { salv with chain := [{ dev := 3, pos := 0, coeffs := [] }] }.chain ≠ [] := by unfold State.Powered State.Hears State.HasPort; decide +kernel

/-- A survivor of a verdict that placed device 2, while a step aborts. -/
def aborts : State := { working with
  job := { working.job with placed := [2] }, steps := { working.steps with recs := [{ no := 1, state := .aborting }] } }
theorem witness_SalvageMessagesAct : working.wake.freezeWaits salv = false ∧ aborts.Powered ∧ aborts.Hears 0 ∧ aborts.wake.JobTraffic 5 2 ∧
    salv.hd.epoch = aborts.wake.job.epoch ∧ aborts.wake.freezeWaits salv = true := by
  unfold State.Powered State.Hears State.HasPort State.JobTraffic; decide +kernel
def later : State := { working with job := { working.job with epoch := 5 } }
theorem witness_RequestEpochs : later.Powered ∧ later.Hears 0 ∧ later.wake.JobTraffic 5 2 ∧ areq.hd.epoch < later.wake.job.epoch ∧
    later.wake.job.epoch < ({ areq with hd := { hd with epoch := 6 } } : AnchorReq).hd.epoch := by
  unfold State.Powered State.Hears State.HasPort State.JobTraffic; decide +kernel
def probing : State := { State.reset with tide := { started := true }, boot := { phase := 1 } }
theorem witness_StartUpRuns : probing.Powered ∧ probing.boot.phase = 1 ∧ probing.tide.started = true ∧ probing.pwr.restored = false ∧
    probing.sec.state ≠ .opened ∧ { probing with sec := { state := .opened } : State }.boot.phase = 1 := by
  unfold State.Powered; decide +kernel
theorem witness_TideCountsAct : ready.Powered ∧ ready.pwr.state ≠ .hold ∧ ready.tide.started = true ∧ ready.tide.backEp = false ∧ ready.tide.stalled = false ∧
    ready.tide.now ≤ 1000 ∧ 999 < ready.tide.now ∧ State.reset.tide.started = false ∧ ready.hpar .tideStallCyc ≤ 2 ^ 40 := by
  unfold State.Powered; decide +kernel
def stalled : State := { ready with tide := { ready.tide with stalled := true } }
theorem witness_TideCountsAct_lost : stalled.tide.stalled = true ∧ stalled.tide.lost = false ∧ stalled.hpar .tideStallCyc ≤ 2 ^ 60 ∧
    stalled.tide.now + (stalled.estimate (2 ^ 60)).hpar .tideLoss ≤ (stalled.estimate (2 ^ 60)).tide.est := by decide +kernel
def waitingGrade : State := { ready with grade := { lower := some (1, 0) }, sb := { gradeIn := 1 }, tide := { ready.tide with now := 2 ^ 50 } }
theorem witness_SidebandRuns : ready.charterRead = true ∧ State.reset.sb.presForced = false ∧ State.reset.sec.presence = false ∧
    (ready.sec.state = .sealed ∨ ready.sec.loop = true ∨ ready.pwr.state ≠ .hold) ∧
    waitingGrade.passed 0 (waitingGrade.hpar .gradeHold) = true ∧
    (if waitingGrade.sb.unsettled then 7 else waitingGrade.sb.gradeIn) = 1 ∧ (ready.quay 0).inService = true ∧ ready.sec.broken = false ∧
    ready.sb.fsArmed = true ∧ ready.pwr.state = .run := by decide +kernel
def present : State := { ready with sb := { presSince := some 0 }, tide := { ready.tide with now := 2 ^ 60 } }
theorem witness_SidebandRuns_presence : present.sb.presSince = some 0 ∧ present.charterRead = true ∧ present.passed 0 (present.hpar .presenceMax) = true ∧
    present.sec.state = .maintenance := by decide +kernel
def linked : State := { ready with ports := [(0, { peer := { up := true } })] }
theorem witness_LinksRun : linked.HasPort 0 ∧ linked.rxOpen 0 = true ∧ ({ linked with pwr := { state := .hold } } : State).rxOpen 0 = false ∧ (linked.port 0).peer.up = true ∧ linked.fitted 0 = true ∧ linked.fitted 19 = true ∧ linked.fitted 12 = false ∧
    ((watched.modQuay 1 (fun q => { q with hb := 0 })).watcher 1).isSome = true := by unfold State.HasPort; decide +kernel
def asking (r : PwrSt) : State := { dueOf .scan with pwr := { pending := some r } }
def entering : State := { ready with pwr := { pending := some .hold, going := true } }
theorem witness_PowerRuns : (asking .hold).pwr.pending = some .hold ∧ PwrSt.hold ≠ (asking .hold).pwr.state ∧ (asking .hold).pwrRefusal .hold = none ∧
    (asking .hold).pwr.going = false ∧ DueEv.scan ∈ (asking .hold).man.due ∧ acc.priv = true ∧ (asking .run).pwr.state = .run ∧
    { asking .run with pwr := { pending := some .run, state := .idle } : State }.pwr.going = false ∧
    (({ working with pwr := { pending := some .hold } } : State).pwrRefusal .hold).isSome = true ∧
    entering.pwr.pending = some .hold ∧ entering.pwr.going = true ∧ entering.pwrRefusal .hold = none ∧
    (∀ p ∈ entering.physIn, (entering.quay p).quietPorts = true) := by decide +kernel
theorem witness_MaintenanceRuns : ready.maint = true ∧ ready.pwr.state = .run ∧ ready.job.phase = .none ∧ ready.crwBusy = false ∧
    (ready.quay 0).inService = true ∧ { ready with crw := { state := 2 } : State }.crwBusy = true := by decide +kernel
def disabled : State := { ready with quays := [(0, { quayOn with enabled := false, paramKey := BitVec.ofNat 32 (keyOf "SCAN_P") })] }
theorem witness_RegisterAccessRuns : ready.QuayOpen 0 ∧ disabled.QuayOpen 0 ∧ disabled.maint = true ∧ (disabled.quay 0).enabled = false ∧
    (ready.quay 0).enabled = true ∧ (paramOfKey (disabled.quay 0).paramKey.toNat).isSome = true ∧ qReg 0x04 = true ∧ ready.snap.busy = false ∧
    regBlk 0x54 = .harbour 0x54 ∧ hReg 0x54 = true := by unfold State.QuayOpen; decide +kernel
theorem witness_EvtInterruptRuns : ∃ e ∈ ({ ready with ev := { unread := [(0, 0)] }, tide := { now := 2 ^ 60 } } : State).ev.unread,
    ({ ready with ev := { unread := [(0, 0)] }, tide := { now := 2 ^ 60 } } : State).passed e.2
      (({ ready with ev := { unread := [(0, 0)] }, tide := { now := 2 ^ 60 } } : State).hpar .evtIrqT) = true := by decide +kernel
theorem witness_TestAccessRuns : ready.fitted 0 = true ∧ ready.tapMay .sample = true ∧ ready.tapMay .extest = true ∧ ready.tapMay .dbgReg = true ∧
    ready.tapMay .dbgData = true := by decide +kernel
theorem witness_AbsentPortStops : ready.fit.nActive ≤ 12 ∧ ({ req with pos := 12 } : CpReq).pos = 12 := by decide +kernel
theorem witness_NoRegisterThere : regBlk 0x10 = .harbour 0x10 ∧ regBlk 0xF0 = .harbour 0xF0 ∧ hReg 0xF0 = false ∧ regBlk (qAddr 0 0x18) = .quay 0 0x18 ∧
    qReg 0x18 = false ∧ ready.fitted 0 = true ∧ (ready.quay 0).failed = false := by decide +kernel
theorem witness_NoRegisterThere_rest : State.reset.AtRest := by
  refine ⟨by decide +kernel, ?_⟩
  intro p _
  simp [State.quay, State.reset, Tbl.get]
theorem witness_UserWritesRefused : ({ acc with priv := false } : Acc).priv = false ∧ regBlk 0x5C = .harbour 0x5C ∧ hReg 0x5C = true ∧
    regBlk (qAddr 19 0x04) = .quay 19 0x04 ∧ qReg 0x04 = true := by decide +kernel
theorem witness_HoldAnswers : sleeping.Powered ∧ sleeping.pwr.state = .hold ∧ regBlk 0x04 = .harbour 0x04 ∧ 0x04 ∉ [0x00, 0x48, 0x50] := by
  unfold State.Powered; decide +kernel
theorem witness_ConfigurationWrites : regBlk 0x1000 = .harbour 0x1000 ∧ hConf 0x1000 = true ∧ ready.maint = true ∧ ready.boot.phase = 5 ∧
    (∃ p ∈ ready.physIn, (ready.quay p).enabled = true) ∧ (∀ p ∈ disabled.physIn, (disabled.quay p).enabled = false) ∧
    State.reset.maint = false := by decide +kernel
theorem witness_PeriodicDue : 3 < 2 ^ 2 ∧ 0 < 2 ^ 0 := by decide
theorem witness_AlarmCause : Evt.secTamper.sev = 3 ∧ Evt.secTamper.alarmBit = some 13 := by decide +kernel
def rec0 : EvRec := { code := 1, sev := 2, pquay := 0, lquay := 0, job := 0, epoch := 0, step := 0, tide := 0, ltide := 0, arg0 := 0, arg1 := 0 }
theorem witness_ErrorQueue : ∀ n ∈ [0, 59, 60, 63, 64], ({ errq := List.replicate n rec0 } : QEv).errq.length ≤ 64 ∧
    ({ errq := List.replicate n rec0 } : QEv).total + rec0.count < 2 ^ 32 := by decide +kernel
theorem witness_SnapshotCopies : ready.fit.ok = true ∧ ({ ready with snap := { busy := true, at_ := 1001 } } : State).tide.now < 1001 ∧
    ready.snap.writing = false ∧ ready.hpar .cntBase = 0 ∧ ({ ready with snap := { busy := true, writing := true } } : State).snapOut = false ∧
    0 ∈ ready.physIn ∧ 1 ∉ ready.physIn := by decide +kernel
theorem witness_RegionLookup : (Quay.region { qcfg := [(0x1000, 0x80000001), (0x1004, 1)] } 0).valid = true ∧
    (Quay.regionOf { qcfg := [(0x1000, 0x80000001), (0x1004, 1)] } 0x1FFF).isSome = true ∧
    Quay.regionOf { qcfg := [(0x1000, 0x80000001), (0x1004, 1)] } 0x2000 = none := by decide +kernel
def berthed (gen : Nat) : Pools :=
  { live := [{ pool := 2, mem := false, idx := 0, gen := gen, count := 1, owner := .anchor, work := 7 }], handles := [(.anchor, 7, pack [(24, 2), (8, 3)])] }
theorem witness_BerthChecks : (berthed 3).refusal (fun _ _ => 1) .anchor (pack [(24, 2), (8, 3)]) (.access 0 4096) = none ∧
    (berthed 3).refusal (fun _ _ => 1) .anchor (pack [(24, 2), (8, 3)]) (.share 254) = none ∧
    (berthed 3).refusal (fun _ _ => 1) .anchor (pack [(24, 2), (8, 3)]) (.share 255) = some 6 ∧
    (berthed 3).refusal (fun _ _ => 1) .anchor (pack [(24, 2), (8, 3)]) (.access 16 4096) = some 2 ∧
    (berthed 4).refusal (fun _ _ => 1) .anchor (pack [(24, 2), (8, 3)]) .release = some 4 := by decide +kernel
theorem witness_BerthChecks_access : (ready.lquay 0).pools.live = [] ∧ (ready.lquay 0).pools.handles = [] ∧ (ready.lquay 0).glitch.contains 8 = false ∧
    (ready.lquay 0).flips = [] ∧ (ready.berthUse 0 .anchor 0 (.access 0 4096)).2 = true := by decide +kernel
theorem witness_AnchorMessagesAct_waits : working.wake.liveStep 3 = false ∧ opened.wake.liveStep 1 = true ∧ opened.Hears 0 := by
  unfold State.Hears State.HasPort; decide +kernel
theorem witness_MemoryReadsBack : Memory.wf [(5, 2), (6, 1)] ∧ Memory.wf [] := by decide
theorem witness_ChannelWriteBytes : Memory.wf ready.mem ∧ 0x1000 % 128 = 0 ∧ 2 ^ 40 - 128 < 2 ^ 40 ∧ (2 ^ 40 - 128) % 128 = 0 := by decide +kernel
theorem witness_ChannelConflictFree : McOrdered [cmd 3 none, { cmd 4 (some data0) with tag := none }] := by unfold McOrdered; decide +kernel
theorem witness_AtomicsCompute : atomOk 1 1 true = true ∧ atomOk 4 4 false = true ∧ 124 % atomBytes 1 = 0 ∧ 120 % atomBytes 4 = 0 := by decide +kernel
theorem witness_LighterBodyRoundTrip : (([{ l := 31, delta := 1, off := 0 }, { l := 0, delta := 0, off := 1 }] : List LLine).map (·.l)).Nodup ∧
    ∀ x ∈ ([{ l := 31, delta := 1, off := 0 }, { l := 0, delta := 0, off := 1 }] : List LLine), x.l < 32 := by decide +kernel
theorem witness_HeaderRoundTrips : (lhdr 1).Fits ∧ (rhdr 1 1).Fits ∧ CHdr.Fits (CHdr.dec (2 ^ 256 - 1)) := by unfold LHdr.Fits RHdr.Fits CHdr.Fits; decide +kernel
theorem witness_TallyOrder : [({ acc := 1 } : Cell), { acc := 2 }].Perm [{ acc := 2 }, { acc := 1 }] := List.Perm.swap _ _ _

end Sys2Proof.Tests
end

section
/-! O51: what memory reads after a write. A read adds up the cells of its span, so it distributes over the three parts a write
is made of: the cells below it, its own and those above it. -/

namespace Sys2Proof.Proofs

open Sys2Proof Sys2Proof.Machine Sys2Proof.Laws

/-- The cells a read of `n` bytes at `k` takes in. -/
def InSpan (k n : Nat) (c : Host.Cell) : Prop := k ≤ c.1 ∧ c.1 < k + n

/-- What a cell adds to a read at `k`: its byte at its little-endian place. -/
def byteAtPlace (k : Nat) (c : Host.Cell) : Nat := c.2.toNat <<< (8 * (c.1 - k))

theorem read_eq_sum (m : List Host.Cell) (k n : Nat) :
    Memory.read m k n = ((m.filter (fun c => k ≤ c.1 && c.1 < k + n)).map (byteAtPlace k)).sum := by
  simp only [Memory.read, List.sum_eq_foldl, List.foldl_map, byteAtPlace]

theorem read_append (m₁ m₂ : List Host.Cell) (k n : Nat) :
    Memory.read (m₁ ++ m₂) k n = Memory.read m₁ k n + Memory.read m₂ k n := by
  simp only [read_eq_sum, List.filter_append, List.map_append, List.sum_append]

theorem read_eq_zero {m : List Host.Cell} {k n : Nat} (h : ∀ c ∈ m, ¬ InSpan k n c) : Memory.read m k n = 0 := by
  have hf : m.filter (fun c => k ≤ c.1 && c.1 < k + n) = [] :=
    List.filter_eq_nil_iff.mpr fun c hc => by simpa [InSpan] using h c hc
  rw [read_eq_sum, hf]
  rfl

/-- A read does not see cells removed from outside its span. -/
theorem read_filter {m : List Host.Cell} {k n : Nat} {p : Host.Cell → Bool} (h : ∀ c, InSpan k n c → p c = true) :
    Memory.read (m.filter p) k n = Memory.read m k n := by
  rw [read_eq_sum, read_eq_sum, List.filter_filter]
  congr 2
  refine List.filter_congr fun c _ => ?_
  by_cases hc : InSpan k n c
  · simp [h c hc]
  · have hout : ¬ (k ≤ c.1 ∧ c.1 < k + n) := hc
    simp [← Bool.decide_and, hout]

theorem read_filter_lt_eq_zero (m : List Host.Cell) {k a : Nat} (n : Nat) (h : k ≤ a) :
    Memory.read (m.filter (fun c => c.1 < k)) a n = 0 := by
  refine read_eq_zero fun c hc ⟨hlo, _⟩ => ?_
  have : c.1 < k := by simpa using (List.mem_filter.mp hc).2
  omega

theorem read_filter_ge_eq_zero (m : List Host.Cell) {k a n : Nat} (h : a + n ≤ k) :
    Memory.read (m.filter (fun c => k ≤ c.1)) a n = 0 := by
  refine read_eq_zero fun c hc ⟨_, hhi⟩ => ?_
  have : k ≤ c.1 := by simpa using (List.mem_filter.mp hc).2
  omega

theorem inSpan_of_mem_cells {k n v : Nat} {c : Host.Cell} (h : c ∈ Memory.cells k n v) : InSpan k n c :=
  ⟨(cells_mem h).1, (cells_mem h).2.1⟩

theorem read_write (m : List Host.Cell) (k n v a b : Nat) :
    Memory.read (Memory.write m k n v) a b =
      Memory.read (m.filter (fun c => c.1 < k)) a b + Memory.read (Memory.cells k n v) a b +
        Memory.read (m.filter (fun c => k + n ≤ c.1)) a b := by
  rw [Memory.write, read_append, read_append]

/-- A read that misses the span of a write reads as before. -/
theorem read_write_of_disjoint (m : List Host.Cell) {k n a b : Nat} (v : Nat) (h : a + b ≤ k ∨ k + n ≤ a) :
    Memory.read (Memory.write m k n v) a b = Memory.read m a b := by
  have hcells : Memory.read (Memory.cells k n v) a b = 0 := by
    refine read_eq_zero fun c hc ⟨hlo, hhi⟩ => ?_
    obtain ⟨hk, hn⟩ := inSpan_of_mem_cells hc
    omega
  rw [read_write, hcells, Nat.add_zero]
  rcases h with hbelow | habove
  · rw [read_filter_ge_eq_zero m (by omega), Nat.add_zero]
    exact read_filter fun c ⟨_, hhi⟩ => decide_eq_true (by omega)
  · rw [read_filter_lt_eq_zero m b (by omega), Nat.zero_add]
    exact read_filter fun c ⟨hlo, _⟩ => decide_eq_true (by omega)

/-- A read of the span of a write sees the written cells only. -/
theorem read_write_eq_read_cells (m : List Host.Cell) (k n v : Nat) :
    Memory.read (Memory.write m k n v) k n = Memory.read (Memory.cells k n v) k n := by
  rw [read_write, read_filter_lt_eq_zero m n (le_refl k), read_filter_ge_eq_zero m (le_refl (k + n)), Nat.zero_add,
    Nat.add_zero]

/-- A read of the written cells at their own span adds up all of them. -/
theorem read_cells_eq_sum (k n v : Nat) :
    Memory.read (Memory.cells k n v) k n = ((Memory.cells k n v).map (byteAtPlace k)).sum := by
  rw [read_eq_sum, List.filter_eq_self.mpr fun c hc => by simpa [InSpan] using inSpan_of_mem_cells hc]

theorem cells_succ (k n v : Nat) :
    Memory.cells k (n + 1) v = Memory.cells k n v ++
      if BitVec.ofNat 8 (v >>> (8 * n)) = 0 then [] else [(k + n, BitVec.ofNat 8 (v >>> (8 * n)))] := by
  rw [Memory.cells, List.range_succ, List.filterMap_append, Memory.cells]
  congr 1
  by_cases hb : BitVec.ofNat 8 (v >>> (8 * n)) = 0
  · rw [if_pos hb]
    exact List.filterMap_cons_none (if_pos hb)
  · rw [if_neg hb]
    exact List.filterMap_cons_some (if_neg hb)

/-- One more byte counts the same whether its cell is listed or left out for being 0. -/
theorem sum_byteAtPlace_cells_succ (k n v : Nat) :
    ((Memory.cells k (n + 1) v).map (byteAtPlace k)).sum =
      ((Memory.cells k n v).map (byteAtPlace k)).sum + 2 ^ (8 * n) * (v / 2 ^ (8 * n) % 2 ^ 8) := by
  have hbyte : (BitVec.ofNat 8 (v >>> (8 * n))).toNat = v / 2 ^ (8 * n) % 2 ^ 8 := by
    rw [BitVec.toNat_ofNat, Nat.shiftRight_eq_div_pow]
  rw [cells_succ, List.map_append, List.sum_append, ← hbyte]
  split
  · next h0 => rw [h0]; rfl
  · simp [byteAtPlace, Nat.shiftLeft_eq, Nat.mul_comm]

/-- The written cells add up to the bytes written, the first byte lowest (R8). -/
theorem sum_byteAtPlace_cells (k n v : Nat) : ((Memory.cells k n v).map (byteAtPlace k)).sum = v % 2 ^ (8 * n) := by
  induction n with
  | zero => rw [Nat.mul_zero, Nat.pow_zero, Nat.mod_one]; rfl
  | succ n ih => rw [sum_byteAtPlace_cells_succ, ih, Nat.mul_succ, Nat.pow_add, Nat.mod_mul]

/-- Bytes written read back, little-endian (R8). -/
theorem read_write_same (m : List Host.Cell) (k n v : Nat) :
    Memory.read (Memory.write m k n v) k n = v % 2 ^ (8 * n) := by
  rw [read_write_eq_read_cells, read_cells_eq_sum, sum_byteAtPlace_cells]

/-- Settles O51: the write keeps the canonical form, its span reads back, and a byte outside its span is as before. -/
theorem memoryReadsBack : Obligations.MemoryReadsBack :=
  fun m k n v a hm => ⟨write_wf hm k n v, read_write_same m k n v, fun ha => read_write_of_disjoint m v (by omega)⟩

end Sys2Proof.Proofs
end

section
/-! O3 and O4: the integration. What a command may answer is said once per wrapper of Settle.lean; every arm of `exec` is a call of one
of them, and none of them lets the queue or the integration change. -/

namespace Sys2Proof.Proofs

open Sys2Proof Sys2Proof.Machine Sys2Proof.Laws

/-- An answer to a command at `s` that, where it is a next state, has the queue and the integration of `s` (R16, R17). -/
def Keeps (s : State) (o : Host.Outcome State Fault Refusal) : Prop :=
  ∀ t, o = .next t → t.pending = s.pending ∧ t.fit = s.fit

theorem keeps_next {s t : State} (hp : t.pending = s.pending) (hf : t.fit = s.fit) : Keeps s (.next t) := by
  rintro _ ⟨⟩
  exact ⟨hp, hf⟩

theorem keeps_fault (s : State) (e : Fault) : Keeps s (.fault e) := by
  rintro _ ⟨⟩

theorem keeps_refused (s : State) (e : Refusal) : Keeps s (.refused e) := by
  rintro _ ⟨⟩

theorem keeps_self (s : State) : Keeps s (.next s) := keeps_next rfl rfl

theorem keeps_keep (s t : State) : Keeps s (.next (t.keep s)) := keeps_next (keep_pending t s) (keep_fit t s)

theorem keeps_after (s : State) (k : State → State) : Keeps s (.next (s.after k)) :=
  keeps_next (after_pending s k) (after_fit s k)

theorem keeps_ite {s : State} {p : Prop} [Decidable p] {o o' : Host.Outcome State Fault Refusal} (h : Keeps s o) (h' : Keeps s o') :
    Keeps s (if p then o else o') := by
  split
  · exact h
  · exact h'

theorem keeps_command (s : State) (k : State → State) : Keeps s (s.command k) := keeps_ite (keeps_self s) (keeps_after s k)

theorem keeps_aside (s : State) (k : State → State) : Keeps s (s.aside k) := keeps_ite (keeps_self s) (keeps_keep s _)

theorem keeps_atPort (s : State) (l : Nat) (k : State → State) : Keeps s (s.atPort l k) :=
  keeps_ite (keeps_fault s _) (keeps_command s k)

theorem keeps_cpCommand (s : State) (op : Nat) (r : CpReq) : Keeps s (s.cpCommand op r) :=
  keeps_ite (keeps_fault s _) (keeps_command s _)

theorem keeps_dueCommand (s : State) (e : DueEv) (k : State → State) : Keeps s (s.dueCommand e k) := keeps_command s _

/-- Whatever state an arrival gives, the command answers with the queue and the integration of `s`. -/
theorem keeps_arrival (s : State) (o : Host.Outcome State Fault Refusal) : Keeps s (s.arrival o) := by
  cases o with
  | next t => exact keeps_ite (keeps_self s) (keeps_after s _)
  | fault e => exact keeps_fault s e
  | refused e => exact keeps_refused s e

/-- No command changes the queue of waiting commands or the integration: each is a call of one wrapper. -/
theorem keeps_exec (c : Instr) (s : State) : Keeps s (exec c s) := by
  cases c with
  | qreset | supplyRemoved => exact keeps_keep s _
  | cpRead | cpWrite | cpRemoteRead | cpRemoteWrite | cpRemoteAtomic => exact keeps_cpCommand s _ _
  | mcReadData | mcWriteAck | mcTimeout | lighterHoldExpiry | lighterAckTimeout | sealLate | anchorTimeout | rmtAckTimeout | rmtLifeExpiry
  | streamRecordFree | combFlush | combIdle | salvFreezeExpiry | voteReport | tileOpenExpiry | lockerAckTimeout | ppLinkDown | ppLinkUp
  | ppFlitCredit => exact keeps_atPort s _ _
  | mooringVoteSlot | dredgeSlot | knownAnswerRun | lockStepWindowClose | coldFlushWindow => exact keeps_dueCommand s _ _
  | heartbeatSend | gradeSettleExpiry | pilotGradeChange | presenceChange | sealLoopRestore | qErrqPop | eccFlipArm | paramValLoWrite
  | paramValHiWrite | evtIrqExpiry | bypass | idcode | samplePreload | extest | clamp | highz | dbgMemData | tapReset | hrFlitCredit
  | sidebandGlitch => apply keeps_aside
  | registerLoRead | registerReadClear => exact keeps_ite (keeps_command s _) (keeps_aside s _)
  | parityDeltaLighter | lighterAck | anchorDone | anchorRequest | anchorAnswer | streamReset | streamResetAnswer | mooringVote | voteRelay
  | voteRelayEmpty | joinMessage | fenceNotice | taint | collectiveAbort | displacementNotice | collContribution | collEnd | collResult
  | collBlock | collFinish | collStale | remoteReadRequest | remoteWriteRequest | atomicAdd | atomicMin | atomicMax | atomicCas
  | remoteReadReply | remoteWriteAnswer | remoteAtomicReply | salvageFreeze | frozen | salvagePass | salvageChainSum | helperLines
  | jobImagePieceRequest | jobImagePiece | refreshData | refreshEnd | refreshResyncRequest | lockerWriteAnswer | lockerReadReply =>
    exact keeps_arrival s _
  | _ => exact keeps_command s _

/-- A step takes the front command off the queue, if there is one, and leaves the rest of it and the integration as they are. -/
theorem step_keeps {s t : State} (h : step s = .next t) : t.pending = s.pending.tail ∧ t.fit = s.fit := by
  unfold step at h
  split at h
  · next hq =>
    cases h
    exact ⟨by rw [hq]; rfl, rfl⟩
  · next c rest hq =>
    obtain ⟨hp, hf⟩ := keeps_exec c { s with pending := rest } t h
    exact ⟨by rw [hp, hq]; rfl, hf⟩

/-- Settles O3: a step leaves the integration as it is, so it stays one that R16 and R17 allow. -/
theorem integrationKept : Obligations.IntegrationKept := by
  intro s t hok hstep
  have hfit : t.fit = s.fit := (step_keeps hstep).2
  exact ⟨hfit ▸ hok, hfit⟩

/-- Settles O4: the arrangement of log 50, 12 active quays on four dies with a relief quay on each. -/
theorem resetIntegration : Obligations.ResetIntegration := by
  constructor
  · decide
  · rfl

end Sys2Proof.Proofs
end

section
/-! O50: the region lookup of R24. An entry of the table counts where its VALID bit is set; one never written reads 0 and is not valid. -/

namespace Sys2Proof.Proofs

open Sys2Proof Sys2Proof.Machine

/-- An address lies in the span of a region, in units of 4 KiB (R24). -/
def InRegion (r : Region) (addr : Nat) : Prop := r.base * 4096 ≤ addr ∧ addr < (r.base + r.size) * 4096

theorem Tbl_get_of_find_none {κ α : Type} [DecidableEq κ] (d : α) {t : Tbl κ α} {k : κ} (h : t.find k = none) : t.get d k = d := by
  induction t with
  | nil => rfl
  | cons e t ih =>
    obtain ⟨k', v⟩ := e
    by_cases hk : k' = k
    · simp [Tbl.find, hk] at h
    · simp only [Tbl.find, if_neg hk] at h
      simp only [Tbl.get, if_neg hk, ih h]

/-- A valid entry has been written: its first word is in the table of configuration words. -/
theorem isSome_find_of_region_valid {q : Quay} {e : Nat} (h : (q.region e).valid = true) :
    (q.qcfg.find (0x1000 + 16 * e)).isSome = true := by
  by_contra hn
  have hget : q.qcfg.get 0 (0x1000 + 16 * e) = 0 := Tbl_get_of_find_none 0 (by simpa using hn)
  have hvalid : (q.region e).valid = bitOf (q.qcfg.get 0 (0x1000 + 16 * e)).toNat 31 := rfl
  rw [hvalid, hget] at h
  simp [bitOf] at h

/-- The list of regions holds the valid entries of the 256, each at its own index. -/
theorem mem_regions {q : Quay} {r : Region} : r ∈ q.regions ↔ ∃ e < 256, q.region e = r ∧ r.valid = true := by
  simp only [Quay.regions, List.mem_filterMap, List.mem_filter, List.mem_range, Option.ite_none_right_eq_some, Option.some.injEq]
  constructor
  · rintro ⟨e, ⟨he, -⟩, hv, rfl⟩
    exact ⟨e, he, rfl, hv⟩
  · rintro ⟨e, he, rfl, hv⟩
    exact ⟨e, ⟨he, isSome_find_of_region_valid hv⟩, hv, rfl⟩

theorem regionOf_eq_some {q : Quay} {addr : Nat} {r : Region} (h : q.regionOf addr = some r) : r ∈ q.regions ∧ InRegion r addr :=
  ⟨List.mem_of_find?_eq_some h, by simpa [InRegion] using List.find?_some h⟩

theorem regionOf_isSome_iff {q : Quay} {addr : Nat} : (q.regionOf addr).isSome = true ↔ ∃ r ∈ q.regions, InRegion r addr := by
  simp [Quay.regionOf, InRegion]

/-- An address in no valid entry is plain (R24). -/
theorem kindOf_eq_zero {s : State} {l addr : Nat} (h : (s.lquay l).regionOf addr = none) : s.kindOf l addr = 0 := by
  simp [State.kindOf, State.regionOf, h]

/-- Settles O50: what the lookup gives is a valid entry that holds the address, and it finds one where there is one. -/
theorem regionLookup : Obligations.RegionLookup := by
  intro q addr
  refine ⟨fun r hr => ?_, fun e he hv hlo hhi => ?_, fun s l hq hnone => kindOf_eq_zero (hq ▸ hnone)⟩
  · obtain ⟨hmem, hlo, hhi⟩ := regionOf_eq_some hr
    obtain ⟨e, he, rfl, hv⟩ := mem_regions.mp hmem
    exact ⟨rfl, he, hv, hlo, hhi⟩
  · exact regionOf_isSome_iff.mpr ⟨q.region e, mem_regions.mpr ⟨e, he, rfl, hv⟩, hlo, hhi⟩

end Sys2Proof.Proofs
end

section
/-! O15 fails in the clause of the flush confirm. R408 has a confirm judged by what the locker's slots hold, which the model knows once both
commit records have been read (`locker.known`); the clause asks for a slot of the named step and not that the slots have been read. In a
state that lists a slot without having read it, and has no locker to read, the confirm is rejected. -/

namespace Sys2Proof.Proofs

open Sys2Proof Sys2Proof.Machine Sys2Proof.Laws

/-- A confirm is rejected while the slots have not been read and there is no locker to read them from (R408). -/
theorem manFlush_confirm_unread {s : State} {m : Nat} (hkind : byt m 32 32 = 2) (hunread : s.locker.known = false)
    (hhead : s.locker.headFail = false) (hnone : s.hpar .lockerDev = 0xFFFFF) : s.manFlush m = .bad s := by
  simp [State.manFlush, hkind, hunread, hhead, hnone]

/-- A confirm acts at the scan that reads it, whatever its EFFECT (R408). -/
theorem manEntry_confirm {s : State} {m : Nat} (hty : manType m = 0xE) (hkind : byt m 32 32 = 2) (idx : Nat) (faults : List LaneFault) :
    s.manEntry false idx m faults =
      s.manOut false idx m (decide (manEffect m ≠ 0) && decide (manEffect m < s.tide.now)) (s.manFlush m) := by
  simp [State.manEntry, State.manAct, hty, hkind]

/-- What a manifest of the command's own row does at a harbour that reads it: what an entry past the checks does (R51, R53). -/
theorem manDirect_reads {s : State} {m : Entry} (h : s.ReadsManifest m) {t : State} {faults : List LaneFault}
    (hentry : s.manEntry (manType m.toNat == 3) (manSeq m.toNat) m.toNat faults = .done t) : s.manDirect m.toNat true faults = t := by
  obtain ⟨⟨-, hphase, hen, hev, hrun, hup⟩, hcheck, -⟩ := h
  simp [State.manDirect, hphase, hen, hev, hrun, hup, hcheck, hentry]

/-- So a confirm without an EFFECT that meets unread slots is counted and logged as rejected. -/
theorem exec_flushConfirm_unread {s : State} {m : Entry} (h : s.ReadsManifest m) (hty : manType m.toNat = 0xE)
    (hkind : byt m.toNat 32 32 = 2) (heff : manEffect m.toNat = 0) (hunread : s.locker.known = false)
    (hhead : s.locker.headFail = false) (hnone : s.hpar .lockerDev = 0xFFFFF) :
    exec (.flushConfirm m) s = .next (s.after (fun _ => s.manBad false (manSeq m.toNat) m.toNat)) := by
  have hrow : (manType m.toNat == 0xE && byt m.toNat 32 32 == 2) = true := by simp [hty, hkind]
  have hdone : s.manDirect m.toNat true [] = s.manBad false (manSeq m.toNat) m.toNat := by
    refine manDirect_reads h ?_
    have hv : (manType m.toNat == 3) = false := by simp [hty]
    rw [hv, manEntry_confirm hty hkind, manFlush_confirm_unread hkind hunread hhead hnone]
    simp [State.manOut, heff]
  calc exec (.flushConfirm m) s
      = .next (s.after (fun s => s.manDirect m.toNat (manType m.toNat == 0xE && byt m.toNat 32 32 == 2) [])) := command_powered h.1.1 _
    _ = .next (s.after (fun _ => s.manBad false (manSeq m.toNat) m.toNat)) := by simp only [State.after, hrow, hdone]

/-- A READY harbour of job 5 without a locker that lists slot 0 as committed at step 6, and has read no slot. -/
def unreadSlot : State :=
  { State.reset with
    quays := [(0, { enabled := true, inService := true, lq := some 0 })], boot := { phase := 5 }, tide := { started := true, now := 1000, est := 1000 },
    job := { tag := 5, phase := .ready }, locker := { slots := [(0, { gen := 1, step := 6 })] } }

/-- FLUSH_CONFIRM of step 6 for job 5, without an EFFECT (R49, R408). -/
def confirmStepSix : Entry := BitVec.ofNat 1024 (withCrc 128 (pack [(64, 0xE), (16, 5), (176, 0), (16, 2), (48, 6)]))

theorem unreadSlot_reads : unreadSlot.ReadsManifest confirmStepSix := by
  unfold State.ReadsManifest State.TakesManifests State.Powered
  decide +kernel

/-- Refutes O15: `unreadSlot` rejects `confirmStepSix` and confirms no slot, where the clause has it confirm slot 0. -/
theorem not_manifestsAct : ¬ Obligations.ManifestsAct := by
  rintro ⟨-, -, hclauses⟩
  obtain ⟨-, -, -, -, -, -, -, -, -, -, -, -, -, -, hconfirm, -⟩ := hclauses unreadSlot confirmStepSix unreadSlot_reads
  have hty : manType confirmStepSix.toNat = 0xE := by decide +kernel
  have hkind : byt confirmStepSix.toNat 32 32 = 2 := by decide +kernel
  have hslot : unreadSlot.locker.slots.find? (fun e => e.2.step == byt confirmStepSix.toNat 39 34) = some (0, { gen := 1, step := 6 }) := by
    decide +kernel
  have hsays := hconfirm hty hkind _ hslot
  rw [exec_flushConfirm_unread unreadSlot_reads hty hkind (by decide +kernel) rfl rfl (by decide +kernel), State.acted,
    Host.Outcome.next.injEq] at hsays
  exact absurd (congrArg (fun t => t.locker.confirmed) hsays) (by decide +kernel)

end Sys2Proof.Proofs
end

section
/-! What a command with power gives, where its effect at its state is known, and what taking the event at the head of the due ones gives. -/

namespace Sys2Proof.Proofs

open Sys2Proof Sys2Proof.Machine Sys2Proof.Laws

/-- With power a command does what its effect gives at its state. -/
theorem command_gives {s : State} (hp : s.Powered) {k k' : State → State} (hk : k s = k' s) : s.command k = .next (s.after k') := by
  rw [command_powered hp, State.after, hk, State.after]

theorem takeDue_head {s : State} {e : DueEv} {rest : List DueEv} (h : s.DueHead e rest) : s.takeDue e = some (s.withDue rest) := by
  obtain ⟨hdue, hruns⟩ := h
  simp [State.takeDue, hdue, hruns, State.withDue]

end Sys2Proof.Proofs
end

section
/-! O42: when a periodic class falls due. The model counts the tides of a class up to a tide, and a class falls due in a span where that
count rises. -/

namespace Sys2Proof.Proofs

open Sys2Proof Sys2Proof.Machine

/-- The count of tides φ, φ + n, … up to tide `x` goes past `k` once `x` reaches the `k`-th of them. -/
theorem lt_dueCount_iff {n φ : Nat} (hφ : φ < n) (k x : Nat) : k < (x + n - φ) / n ↔ φ + k * n ≤ x := by
  rw [Nat.lt_iff_add_one_le, Nat.le_div_iff_mul_le (by omega), Nat.add_one_mul]
  omega

theorem dueCount_le_iff {n φ : Nat} (hφ : φ < n) (k x : Nat) : (x + n - φ) / n ≤ k ↔ x < φ + k * n := by
  rw [← not_lt, lt_dueCount_iff hφ, not_le]

/-- A class falls due in a span where one of its tides lies in it. -/
theorem falls_iff_exists {p φ : Nat} (hφ : φ < 2 ^ p) (a b : Nat) :
    falls p φ a b = true ↔ ∃ k, a < φ + k * 2 ^ p ∧ φ + k * 2 ^ p ≤ b := by
  have hrises : falls p φ a b = true ↔ ∃ k, (a + 2 ^ p - φ) / 2 ^ p ≤ k ∧ k < (b + 2 ^ p - φ) / 2 ^ p := by
    rw [falls, Nat.mod_eq_of_lt hφ, decide_eq_true_iff]
    exact ⟨fun h => ⟨_, le_rfl, h⟩, fun ⟨_, ha, hb⟩ => ha.trans_lt hb⟩
  simp only [hrises, lt_dueCount_iff hφ, dueCount_le_iff hφ]

/-- Settles O42: the tides of the class are those congruent to its phase (R40). -/
theorem periodicDue : Obligations.PeriodicDue := by
  intro p φ a b hφ
  rw [falls_iff_exists hφ]
  constructor
  · rintro ⟨k, ha, hb⟩
    exact ⟨_, ha, hb, by rw [Nat.add_mul_mod_self_right, Nat.mod_eq_of_lt hφ]⟩
  · rintro ⟨t, ha, hb, rfl⟩
    have ht : t % 2 ^ p + t / 2 ^ p * 2 ^ p = t := Nat.mod_add_div' t _
    exact ⟨t / 2 ^ p, by rwa [ht], by rwa [ht]⟩

end Sys2Proof.Proofs
end

section
/-! O43 and O28: the tide. What a presented count, a stall and a lost tide do, said once per case, and what the current tide is after
each; a logged event and a message on the control class leave the tide alone. -/

namespace Sys2Proof.Proofs

open Sys2Proof Sys2Proof.Machine Sys2Proof.Laws

theorem tide_eq_of_evOnly {s t : State} (h : EvOnly s t) : t.tide = s.tide := by
  obtain ⟨_, _, _, _, _, _, rfl⟩ := h
  rfl

@[simp] theorem evH_tide (s : State) (e : Evt) (args : List (Nat × Nat)) : (s.evH e args).tide = s.tide := tide_eq_of_evOnly (evOnly_evH s e args)

@[simp] theorem countP_tide (s : State) (p ev k : Nat) (a : CntAttr) : (s.countP p ev k a).tide = s.tide :=
  tide_eq_of_evOnly (evOnly_countP s p ev k a)

theorem evOnly_ringCast (s : State) (l cls : Nat) (m : RingMsg) : EvOnly s (s.ringCast l cls m) := by
  unfold State.ringCast
  split
  · exact (evOnly_ringPut _ _ _ _).trans (evOnly_ringPut _ _ _ _)
  · exact EvOnly.refl s

@[simp] theorem faultWin_now (s : State) : s.faultWin.tide.now = s.tide.now := by
  rw [State.faultWin, tide_eq_of_evOnly (evOnly_ringCast _ _ _ _)]

@[simp] theorem fire_tide (s : State) (a b : Nat) : (s.fire a b).tide = s.tide := rfl

@[simp] theorem holdMissed_tide (s : State) (a b : Nat) : (s.holdMissed a b).tide = s.tide := rfl

/-- An accepted count becomes the current tide (R35). -/
theorem tideAccept_now (s : State) (c : Nat) : (s.tideAccept c).tide.now = c := by
  simp only [State.tideAccept, fire_tide, apply_ite State.tide, apply_ite Tide.now, holdMissed_tide, countP_tide, evH_tide, faultWin_now,
    ite_self]

/-- A count below the current tide leaves it as it is (R38). -/
theorem tideBackward_now (s : State) (c : Nat) : (s.tideBackward c).tide.now = s.tide.now := by
  unfold State.tideBackward
  split
  · rfl
  · rw [evH_tide, faultWin_now]

/-! ## A presented count -/

theorem tideCount_hold {s : State} (h : s.pwr.state = .hold) (c : Nat) : s.tideCount c = s := by
  simp [State.tideCount, h]

theorem tideCount_first {s : State} (hp : s.Powered) (hh : s.pwr.state ≠ .hold) (h : s.tide.started = false) (c : Nat) :
    s.tideCount c = { s with tide := { s.tide with started := true, now := c, est := c }, boot := { s.boot with phase := 1 } } := by
  unfold State.Powered at hp
  simp [State.tideCount, hp, hh, h]

section
variable {s : State} (hp : s.Powered) (hh : s.pwr.state ≠ .hold) (h : s.tide.started = true) {c : Nat}
include hp hh h

theorem tideCount_below (hc : c < s.tide.now) : s.tideCount c = s.tideBackward c := by
  unfold State.Powered at hp
  simp [State.tideCount, hp, hh, h, hc]

theorem tideCount_accept (hb : s.tide.backEp = true → c ≠ s.tide.now) (hc : s.tide.now ≤ c) : s.tideCount c = s.tideAccept c := by
  unfold State.Powered at hp
  simpa [State.tideCount, hp, hh, h, hc.not_gt] using fun hback hsame => absurd hsame (hb hback)

/-- A backward episode goes on when the current tide is presented again (R38). -/
theorem tideCount_again (hb : s.tide.backEp = true) : s.tideCount s.tide.now = s := by
  unfold State.Powered at hp
  simp [State.tideCount, hp, hh, h, hb]

/-- Past the first count the current tide is the higher of itself and the count (R35). -/
theorem tideCount_now (c : Nat) : (s.tideCount c).tide.now = max s.tide.now c := by
  rcases lt_or_ge c s.tide.now with hlt | hge
  · rw [tideCount_below hp hh h hlt, tideBackward_now, max_eq_left hlt.le]
  · rw [max_eq_right hge]
    by_cases hsame : s.tide.backEp = true ∧ c = s.tide.now
    · obtain ⟨hb, rfl⟩ := hsame
      rw [tideCount_again hp hh h hb]
    · rw [tideCount_accept hp hh h (not_and.mp hsame) hge, tideAccept_now]

end

theorem tideBackward_begins {s : State} (hb : s.tide.backEp = false) (hs : s.tide.stalled = false) (c : Nat) :
    s.tideBackward c =
      (State.faultWin { s with tide := { s.tide with backEp := true, stalled := true, est := s.tide.now } }).evH .tideBack
        [(64, c), (64, s.tide.now)] := by
  simp [State.tideBackward, hb, hs]

/-- Settles O43: past the first count the tide is the higher of itself and the count presented, and in Hold nothing changes. -/
theorem tideNeverFalls : Obligations.TideNeverFalls := by
  intro s n hp
  refine ⟨fun hhold => tideCount_hold hhold n, fun hh hstarted => tideCount_now hp hh hstarted n, fun hh hstart => ?_⟩
  rw [tideCount_first hp hh hstart]
  exact ⟨rfl, rfl⟩

/-! ## Time without a count -/

@[simp] theorem estimate_now (s : State) (cyc : Nat) : (s.estimate cyc).tide.now = s.tide.now := rfl

@[simp] theorem estimate_stalled (s : State) (cyc : Nat) : (s.estimate cyc).tide.stalled = s.tide.stalled := rfl

@[simp] theorem estimate_lost (s : State) (cyc : Nat) : (s.estimate cyc).tide.lost = s.tide.lost := rfl

section
variable {s : State} (hp : s.Powered) (hh : s.pwr.state ≠ .hold) (h : s.tide.started = true) {cyc : Nat}
  (hcyc : s.hpar .tideStallCyc ≤ cyc)
include hp hh h hcyc

/-- TIDE_STALL_CYC cycles without a count begin a stall (R37). -/
theorem tideStall_begins (hs : s.tide.stalled = false) :
    s.tideStall cyc =
      (State.faultWin { s.estimate cyc with tide := { (s.estimate cyc).tide with stalled := true } }).evH .tideStall := by
  unfold State.Powered at hp
  simp [State.tideStall, hp, hh, h, hcyc.not_gt, hs]

theorem tideStall_goes_on (hs : s.tide.stalled = true) : s.tideStall cyc = s.estimate cyc := by
  unfold State.Powered at hp
  simp [State.tideStall, hp, hh, h, hcyc.not_gt, hs]

/-- A stall that has reached TIDE_LOSS estimated tides loses the tide (R38). -/
theorem tideLost_reached (hs : s.tide.stalled = true) (hlost : s.tide.lost = false)
    (hreach : s.tide.now + (s.estimate cyc).hpar .tideLoss ≤ (s.estimate cyc).tide.est) :
    s.tideLost cyc =
      (State.evH { s.estimate cyc with tide := { (s.estimate cyc).tide with lost := true } } .tideLost).abortWhere (fun _ => true) 6 := by
  simp [State.tideLost, tideStall_goes_on hp hh h hcyc hs, hs, hlost, hreach.not_gt]

end

/-- Settles O28: one clause per way in which a count, or its absence, changes the tide. -/
theorem tideCountsAct : Obligations.TideCountsAct := by
  intro s n hp hh
  refine ⟨fun hstart => ?_, fun hstarted hb hn => ?_, fun hstarted hb hn hs => ?_, fun hstarted hs hcyc => ?_,
    fun hstarted hs hlost hcyc hreach => ?_⟩
  · exact command_gives hp (tideCount_first hp hh hstart n)
  · exact command_gives hp (tideCount_accept hp hh hstarted (by simp [hb]) hn)
  · exact command_gives hp ((tideCount_below hp hh hstarted hn).trans (tideBackward_begins hb hs n))
  · exact command_gives hp (tideStall_begins hp hh hstarted hcyc hs)
  · exact command_gives hp (tideLost_reached hp hh hstarted hcyc hs hlost hreach)

end Sys2Proof.Proofs
end

section
/-! O44: manifests that a check of R51 refuses. A manifest given as a command is read by itself as the scan of its ring would read it (log 41). -/

namespace Sys2Proof.Proofs

open Sys2Proof Sys2Proof.Machine Sys2Proof.Laws

/-- A manifest command reads its manifest as one of its own row where its test of the row is met. -/
theorem command_manDirect_row {s : State} {m : Nat} {row : Bool} {fs faults : List LaneFault} (hrow : row = true) (hfaults : fs = faults) :
    s.command (fun s => s.manDirect m row fs) = s.command (fun s => s.manDirect m true faults) := by
  rw [hrow, hfaults]

/-- The command that stands for a manifest reads it by itself, as the manifest of its own row (log 41). A TYPE has one command, or two
that a field tells apart. -/
theorem exec_manRow {m : Entry} {faults : List LaneFault} {i : Instr} (h : manRow m faults = some i) (s : State) :
    exec i s = s.command (fun s => s.manDirect m.toNat true (rowFaults m faults)) := by
  unfold manRow at h
  dsimp only at h
  split at h <;> rename_i hty
  case h_1 | h_7 | h_9 | h_14 =>
    cases h
    split <;> rename_i hfield <;> exact command_manDirect_row (by simpa [hty] using hfield) (by simp [rowFaults, hty])
  case h_3 =>
    split_ifs at h with hkind hkind <;> cases h <;> exact command_manDirect_row (by simpa [hty] using hkind) (by simp [rowFaults, hty])
  case h_17 => cases h
  all_goals
    cases h
    exact command_manDirect_row (by simp [hty]) (by simp [rowFaults, hty])

/-- Past MCRC and SEQ, a manifest that fails a check at a harbour that acts on manifests is rejected with the check's number (R51). -/
theorem manDirect_rejects {s : State} {m : Entry} (h : s.TakesManifests m) {c : Nat}
    (hc : s.manCheck (manType m.toNat == 3) (manSeq m.toNat) m.toNat true = c) (hge : 3 ≤ c) (faults : List LaneFault) :
    s.manDirect m.toNat true faults = s.manFail (manType m.toNat == 3) (manSeq m.toNat) c := by
  obtain ⟨-, hphase, hen, hev, hrun, hup⟩ := h
  have hwritten : c ≠ 1 := by omega
  have hfails : c ≠ 0 := by omega
  simp only [State.manDirect, hphase, hen, hev, hrun, hup, hc]
  by_cases h3 : c = 3 <;> simp [h3, hwritten, hfails]

/-- Settles O44: the command reads its own manifest, and that reading rejects it with the number of the check. -/
theorem manifestsRejected : Obligations.ManifestsRejected := by
  intro s m faults i c hrow htakes hc hge
  rw [exec_manRow hrow]
  exact command_gives htakes.1 (manDirect_rejects htakes hc hge _)

end Sys2Proof.Proofs
end

section
/-! O10, O12, O13, O14 and O34: timers and scheduled events run their rule. An event that has fired runs at the head of the due ones
alone (R43). -/

namespace Sys2Proof.Proofs

open Sys2Proof Sys2Proof.Machine Sys2Proof.Laws

/-- Settles O10: each of these commands is its rule, run at a harbour with power. -/
theorem harbourTimersRun : Obligations.HarbourTimersRun := by
  intro s n u pass fl hp
  and_intros <;> exact command_powered hp _

/-- Settles O12: each of these commands takes its event from the head of the due ones. -/
theorem dueEventsRun : Obligations.DueEventsRun := by
  intro s rest l run hp
  and_intros <;> exact fun hd => dueCommand_head hp hd _

/-! ## The scan tide -/

/-- The scan of a harbour without a warm restart to begin, whose power request stands and whose grade leaves it out of Idle (R50). -/
theorem manifestScan_scans {s : State} {rest : List DueEv} (hd : s.DueHead .scan rest) (hwarm : (s.withDue rest).scanBegin.boot.warmReq = false)
    (hpwr : (s.withDue rest).scanBegin.pwrTake = (s.withDue rest).scanBegin) (hidle : (s.withDue rest).scanBegin.gradeScan.pwr.state ≠ .idle) :
    s.manifestScan = (s.withDue rest).scanBegin.gradeScan.evScan.scanRings := by
  simp [State.manifestScan, takeDue_head hd, hwarm, hpwr, hidle]

theorem manifestScan_warm {s : State} {rest : List DueEv} (hd : s.DueHead .scan rest) (hwarm : (s.withDue rest).scanBegin.boot.warmReq = true) :
    s.manifestScan = (s.withDue rest).scanBegin.warmBegin := by
  simp [State.manifestScan, takeDue_head hd, hwarm]

theorem heldManifest_head {s : State} {rest : List DueEv} (hd : s.DueHead .held rest) (hphase : s.boot.phase = 5)
    (hen : (s.withDue rest).allEnabled = true) : s.heldManifest = (s.withDue rest).heldDue := by
  simp [State.heldManifest, takeDue_head hd, hphase, hen]

theorem warmScan_head {s : State} {rest : List DueEv} (hd : s.DueHead .scan rest) (hphase : s.boot.phase ≠ 7)
    (hwarm : (s.withDue rest).secScan.boot.warmReq = true) (ch : CharterPort) (bad : List Nat) :
    s.warmScan ch bad = (s.withDue rest).secScan.warmRestart ch bad := by
  simp [State.warmScan, takeDue_head hd, hphase, hwarm]

theorem warmScan_begun {s : State} (hphase : s.boot.phase = 7) (ch : CharterPort) (bad : List Nat) :
    s.warmScan ch bad = s.bootRun ch bad := by
  simp [State.warmScan, State.warmRestart, hphase]

/-- Settles O13: the scan, the start of a warm restart in its place, held manifests, and the restart itself. -/
theorem scanTideRuns : Obligations.ScanTideRuns := by
  intro s rest ch bad hp
  refine ⟨fun hd => ?_, fun hd hwarm => ?_, fun hd hphase hen => ?_, fun hd hphase hwarm => ?_, fun hphase => ?_⟩
  · intro s1 hwarm hpwr hidle
    exact command_gives hp (manifestScan_scans hd hwarm hpwr hidle)
  · exact command_gives hp (manifestScan_warm hd hwarm)
  · exact command_gives hp (heldManifest_head hd hphase hen)
  · exact command_gives hp (warmScan_head hd hphase hwarm ch bad)
  · exact command_gives hp (warmScan_begun hphase ch bad)

/-! ## Held launches -/

/-- The held launch of the named OP starts at the head of the due events (R53, R225). -/
theorem launchDue_head {s : State} {cseq : Nat} {h : Held} {rest : List DueEv} (hd : s.DueHead (.launch cseq) rest)
    (hheld : s.heldLaunch cseq = some h) {op : Nat} (hop : byt h.entry.toNat 34 34 = op) :
    s.launchDue op cseq = (s.withDue rest).launch h := by
  simp [State.launchDue, hheld, hop, takeDue_head hd]

/-- Settles O14: each command starts the held launch of its own OP. -/
theorem launchesRun : Obligations.LaunchesRun := by
  intro s cseq h rest hp hd hheld
  and_intros <;> exact fun hop => command_gives hp (launchDue_head hd hheld hop)

/-! ## The EVT interrupt -/

theorem evIrqTest_raises {s : State}
    (h : s.ev.unread.length ≥ max (s.hpar .evtIrqCnt) 1 ∨ ∃ e ∈ s.ev.unread, s.passed e.2 (s.hpar .evtIrqT) = true) :
    s.evIrqTest = s.setIrq 1 := by
  rw [State.evIrqTest, if_pos (by simpa [List.any_eq_true] using h)]

/-- Settles O34: the command tests the count and the age of the unread records. -/
theorem evtInterruptRuns : Obligations.EvtInterruptRuns := by
  intro s hp h
  exact (aside_powered hp _).trans (by rw [evIrqTest_raises h])

end Sys2Proof.Proofs
end

section
/-! O55: the coder's field (R71). A product is a sum of shifts of the first factor, one for each bit of the second, each reduced by the
field's polynomial; so products distribute over XOR. A byte is built from 0 and 1 by doubling and XOR, and an induction along that makes
the bytes a commutative monoid, in which the chain of squares of `gfInv` is a^254. -/

namespace Sys2Proof.Proofs

open Sys2Proof Sys2Proof.Machine

/-! ## Multiplying by x -/

theorem testBit_seven {a : Nat} (h : a < 256) : a.testBit 7 = decide (128 ≤ a) := by
  rw [Nat.testBit_eq_decide_div_mod_eq, decide_eq_decide]
  omega

theorem gfX_of_lt {a : Nat} (h : a < 128) : gfX a = 2 * a := if_pos h

/-- Both halves of the doubling are XORs: the shift, and the polynomial taken off where bit 7 leaves the byte. -/
theorem gfX_eq {a : Nat} (h : a < 256) : gfX a = (a <<< 1) ^^^ (if a.testBit 7 then 0x11D else 0) := by
  rw [gfX, testBit_seven h, Nat.shiftLeft_eq, Nat.mul_comm a]
  by_cases hlt : a < 128
  · simp [hlt, hlt.not_ge]
  · simp [hlt, not_lt.mp hlt]

theorem gfX_lt {a : Nat} (h : a < 256) : gfX a < 256 := by
  by_cases hlt : a < 128
  · rw [gfX_of_lt hlt]
    omega
  · have hlt9 : gfX a < 2 ^ 9 := by
      rw [gfX, if_neg hlt]
      exact Nat.xor_lt_two_pow (by omega) (by decide)
    have hbit : (gfX a).testBit 8 = false := by
      rw [gfX, if_neg hlt, Nat.testBit_xor, Nat.testBit_eq_decide_div_mod_eq (x := 2 * a), decide_eq_true (by omega)]
      decide
    rw [Nat.testBit_eq_decide_div_mod_eq, decide_eq_false_iff_not] at hbit
    omega

theorem gfX_xor {a b : Nat} (ha : a < 256) (hb : b < 256) : gfX (a ^^^ b) = gfX a ^^^ gfX b := by
  rw [gfX_eq ha, gfX_eq hb, gfX_eq (Nat.xor_lt_two_pow (n := 8) ha hb), Nat.shiftLeft_xor_distrib, Nat.testBit_xor]
  cases a.testBit 7 <;> cases b.testBit 7 <;> simp [Nat.xor_assoc, Nat.xor_comm, Nat.xor_left_comm]

theorem iterate_gfX_lt {a : Nat} (ha : a < 256) (n : Nat) : gfX^[n] a < 256 := by
  induction n with
  | zero => exact ha
  | succ n ih => rw [Function.iterate_succ_apply']; exact gfX_lt ih

theorem iterate_gfX_xor {a b : Nat} (ha : a < 256) (hb : b < 256) (n : Nat) : gfX^[n] (a ^^^ b) = gfX^[n] a ^^^ gfX^[n] b := by
  induction n with
  | zero => rfl
  | succ n ih => simp only [Function.iterate_succ_apply', ih, gfX_xor (iterate_gfX_lt ha n) (iterate_gfX_lt hb n)]

/-! ## A product, bit by bit of its second factor -/

/-- What bit `i` of `b` adds to the product: `a` times x^i. -/
def gfTerm (a b i : Nat) : Nat := if b.testBit i then gfX^[i] a else 0

theorem gfTerm_lt {a : Nat} (ha : a < 256) (b i : Nat) : gfTerm a b i < 256 := by
  unfold gfTerm
  split
  · exact iterate_gfX_lt ha i
  · decide

theorem gfMulAux_succ (n a b : Nat) : gfMulAux (n + 1) a b = gfMulAux n a b ^^^ gfTerm a b n := by
  induction n generalizing a b with
  | zero => simp [gfMulAux, gfTerm, Nat.testBit_zero]
  | succ n ih =>
    rw [gfMulAux, ih, gfMulAux, Nat.xor_assoc]
    simp only [gfTerm, Function.iterate_succ_apply, Nat.testBit_succ]

theorem gfMulAux_lt {a : Nat} (ha : a < 256) (n b : Nat) : gfMulAux n a b < 256 := by
  induction n with
  | zero => exact Nat.zero_lt_succ _
  | succ n ih => rw [gfMulAux_succ]; exact Nat.xor_lt_two_pow (n := 8) ih (gfTerm_lt ha b n)

theorem gfTerm_xor_left {a a' : Nat} (ha : a < 256) (ha' : a' < 256) (b i : Nat) :
    gfTerm (a ^^^ a') b i = gfTerm a b i ^^^ gfTerm a' b i := by
  simp only [gfTerm, iterate_gfX_xor ha ha']
  split <;> rfl

theorem gfTerm_xor_right (a b b' i : Nat) : gfTerm a (b ^^^ b') i = gfTerm a b i ^^^ gfTerm a b' i := by
  simp only [gfTerm, Nat.testBit_xor]
  cases b.testBit i <;> cases b'.testBit i <;> simp

theorem gfMulAux_xor_left {a a' : Nat} (ha : a < 256) (ha' : a' < 256) (n b : Nat) :
    gfMulAux n (a ^^^ a') b = gfMulAux n a b ^^^ gfMulAux n a' b := by
  induction n with
  | zero => simp [gfMulAux]
  | succ n ih => simp only [gfMulAux_succ, ih, gfTerm_xor_left ha ha', Nat.xor_assoc, Nat.xor_left_comm]

theorem gfMulAux_xor_right (n a b b' : Nat) : gfMulAux n a (b ^^^ b') = gfMulAux n a b ^^^ gfMulAux n a b' := by
  induction n with
  | zero => simp [gfMulAux]
  | succ n ih => simp only [gfMulAux_succ, ih, gfTerm_xor_right, Nat.xor_assoc, Nat.xor_left_comm]

/-- Multiplying the first factor by x multiplies the product by x. -/
theorem gfMulAux_gfX {a : Nat} (ha : a < 256) (n b : Nat) : gfMulAux n (gfX a) b = gfX (gfMulAux n a b) := by
  induction n with
  | zero => rfl
  | succ n ih =>
    rw [gfMulAux_succ, gfMulAux_succ, gfX_xor (gfMulAux_lt ha n b) (gfTerm_lt ha b n), ih]
    congr 1
    simp only [gfTerm, ← Function.iterate_succ_apply, Function.iterate_succ_apply', apply_ite gfX]
    rfl

/-! ## The product of polynomials (R71) -/

/-- One step of the reduction: the polynomial, shifted to bit `i`, taken off where that bit is set. -/
def reduceBit (r i : Nat) : Nat := if r.testBit i then r ^^^ (0x11D <<< (i - 8)) else r

theorem polyMod_eq_foldl (v : Nat) : polyMod v = [14, 13, 12, 11, 10, 9, 8].foldl reduceBit v := rfl

theorem reduceBit_xor (r r' i : Nat) : reduceBit (r ^^^ r') i = reduceBit r i ^^^ reduceBit r' i := by
  simp only [reduceBit, Nat.testBit_xor]
  cases r.testBit i <;> cases r'.testBit i <;> simp [Nat.xor_assoc, Nat.xor_comm, Nat.xor_left_comm]

theorem foldl_reduceBit_xor (is : List Nat) (r r' : Nat) :
    is.foldl reduceBit (r ^^^ r') = is.foldl reduceBit r ^^^ is.foldl reduceBit r' := by
  induction is generalizing r r' with
  | nil => rfl
  | cons i is ih => rw [List.foldl_cons, reduceBit_xor, ih, List.foldl_cons, List.foldl_cons]

theorem polyMod_xor (v w : Nat) : polyMod (v ^^^ w) = polyMod v ^^^ polyMod w := foldl_reduceBit_xor _ v w

theorem reduceBit_of_lt {v i : Nat} (h : v < 2 ^ i) : reduceBit v i = v := by
  simp [reduceBit, Nat.testBit_lt_two_pow h]

theorem polyMod_of_lt {v : Nat} (h : v < 256) : polyMod v = v := by
  have hbit : ∀ i, 8 ≤ i → reduceBit v i = v := fun i hi =>
    reduceBit_of_lt (h.trans_le (Nat.pow_le_pow_right (n := 2) (by decide) hi))
  simp [polyMod_eq_foldl, hbit]

/-- The polynomial and its shifts are 0 in the field. -/
theorem polyMod_poly_shiftLeft : ∀ i < 7, polyMod (0x11D <<< i) = 0 := by decide

/-- Reducing a shift of one place more is multiplying by x first. -/
theorem polyMod_shiftLeft_succ {a i : Nat} (ha : a < 256) (hi : i < 7) : polyMod (a <<< (i + 1)) = polyMod (gfX a <<< i) := by
  rw [gfX_eq ha, Nat.shiftLeft_xor_distrib, polyMod_xor, ← Nat.shiftLeft_add, Nat.add_comm 1 i]
  split
  · rw [polyMod_poly_shiftLeft i hi, Nat.xor_zero]
  · rw [Nat.zero_shiftLeft, polyMod_of_lt (by decide : 0 < 256), Nat.xor_zero]

theorem polyMod_shiftLeft {a i : Nat} (ha : a < 256) (hi : i ≤ 7) : polyMod (a <<< i) = gfX^[i] a := by
  induction i generalizing a with
  | zero => exact polyMod_of_lt ha
  | succ i ih => rw [polyMod_shiftLeft_succ ha hi, ih (gfX_lt ha) (by omega), Function.iterate_succ_apply]

/-- The product of `a` and the lowest `n` bits of `b`, not reduced. -/
def polyMulUpTo (n a b : Nat) : Nat := (List.range n).foldl (fun r i => if b.testBit i then r ^^^ (a <<< i) else r) 0

theorem polyMul_eq_polyMulUpTo (a b : Nat) : polyMul a b = polyMulUpTo 8 a b := rfl

theorem polyMulUpTo_succ (n a b : Nat) :
    polyMulUpTo (n + 1) a b = polyMulUpTo n a b ^^^ (if b.testBit n then a <<< n else 0) := by
  simp only [polyMulUpTo, List.range_succ, List.foldl_append, List.foldl_cons, List.foldl_nil]
  split <;> simp

theorem polyMod_polyMulUpTo {n a : Nat} (ha : a < 256) (hn : n ≤ 8) (b : Nat) : polyMod (polyMulUpTo n a b) = gfMulAux n a b := by
  induction n with
  | zero => exact polyMod_of_lt (v := 0) (by decide)
  | succ n ih =>
    rw [polyMulUpTo_succ, polyMod_xor, ih (by omega), gfMulAux_succ, gfTerm]
    split
    · rw [polyMod_shiftLeft ha (by omega)]
    · rfl

/-! ## The bytes under the product -/

theorem gfMul_eq {a b : Nat} (ha : a < 256) (hb : b < 256) : gfMul a b = gfMulAux 8 a b := by
  rw [gfMul, Nat.mod_eq_of_lt ha, Nat.mod_eq_of_lt hb]

theorem gfMul_lt (a b : Nat) : gfMul a b < 256 := gfMulAux_lt (Nat.mod_lt a (by decide)) 8 _

theorem gfMul_eq_polyMod {a b : Nat} (ha : a < 256) (hb : b < 256) : gfMul a b = polyMod (polyMul a b) := by
  rw [gfMul_eq ha hb, polyMul_eq_polyMulUpTo, polyMod_polyMulUpTo ha le_rfl]

theorem gfMul_xor_right (a b c : Nat) : gfMul a (b ^^^ c) = gfMul a b ^^^ gfMul a c := by
  simp only [gfMul, Nat.xor_mod_two_pow (n := 8), gfMulAux_xor_right]

theorem gfMul_xor_left (a b c : Nat) : gfMul (a ^^^ b) c = gfMul a c ^^^ gfMul b c := by
  rw [gfMul, Nat.xor_mod_two_pow (n := 8), gfMulAux_xor_left (Nat.mod_lt a (by decide)) (Nat.mod_lt b (by decide))]
  rfl

@[simp] theorem gfMul_zero (a : Nat) : gfMul a 0 = 0 := by
  simpa using gfMul_xor_right a 0 0

@[simp] theorem zero_gfMul (a : Nat) : gfMul 0 a = 0 := by
  simpa using gfMul_xor_left 0 0 a

theorem gfMul_one {a : Nat} (ha : a < 256) : gfMul a 1 = a := by
  simp [gfMul, Nat.mod_eq_of_lt ha, gfMulAux]

theorem gfX_gfMul {a : Nat} (ha : a < 256) (b : Nat) : gfMul (gfX a) b = gfX (gfMul a b) := by
  rw [gfMul, gfMul, Nat.mod_eq_of_lt ha, Nat.mod_eq_of_lt (gfX_lt ha), gfMulAux_gfX ha]

/-- A second factor below 2^7 doubles without being reduced. -/
theorem gfMul_two_mul {a c : Nat} (ha : a < 256) (hc : c < 128) : gfMul a (2 * c) = gfX (gfMul a c) := by
  have hbit : c.testBit 7 = false := Nat.testBit_lt_two_pow (i := 7) hc
  have hlast : gfMulAux 8 (gfX a) c = gfMulAux 7 (gfX a) c := by rw [gfMulAux_succ, gfTerm, hbit]; simp
  rw [← gfX_gfMul ha, gfMul_eq ha (by omega), gfMul_eq (gfX_lt ha) (by omega), hlast, gfMulAux]
  simp

theorem two_mul_xor_mod_two (c : Nat) : 2 * (c / 2) ^^^ c % 2 = c := by
  refine Nat.eq_of_testBit_eq fun i => ?_
  cases i <;> simp [Nat.testBit_succ, Nat.testBit_zero, Nat.xor_div_two]

/-- Every byte is built from 0 and 1 by doubling below 2^7 and XOR. -/
theorem byte_induction {P : (c : Nat) → c < 256 → Prop} (zero : P 0 (by decide)) (one : P 1 (by decide))
    (double : ∀ c (h : c < 128), P c (by omega) → P (2 * c) (by omega))
    (xor : ∀ c (hc : c < 256) d (hd : d < 256), P c hc → P d hd → P (c ^^^ d) (Nat.xor_lt_two_pow (n := 8) hc hd))
    (c : Nat) (hc : c < 256) : P c hc := by
  induction c using Nat.strong_induction_on with
  | _ c ih =>
    obtain rfl | hpos := Nat.eq_zero_or_pos c
    · exact zero
    · have heven : P (2 * (c / 2)) (by omega) := double _ (by omega) (ih _ (by omega) (by omega))
      have hlow : P (c % 2) (by omega) := by
        obtain h | h := Nat.mod_two_eq_zero_or_one c
        · simpa only [h] using zero
        · simpa only [h] using one
      simpa only [two_mul_xor_mod_two] using xor _ _ _ _ heven hlow

theorem one_gfMul {a : Nat} (ha : a < 256) : gfMul 1 a = a := by
  induction a, ha using byte_induction with
  | zero => rfl
  | one => rfl
  | double c hc ih => rw [gfMul_two_mul (by decide) hc, ih, gfX_of_lt hc]
  | xor c hc d hd ihc ihd => rw [gfMul_xor_right, ihc, ihd]

theorem gfMul_comm {a b : Nat} (ha : a < 256) (hb : b < 256) : gfMul a b = gfMul b a := by
  induction b, hb using byte_induction with
  | zero => simp
  | one => rw [gfMul_one ha, one_gfMul ha]
  | double c hc ih => rw [gfMul_two_mul ha hc, ih, ← gfX_gfMul (by omega), gfX_of_lt hc]
  | xor c hc d hd ihc ihd => rw [gfMul_xor_right, gfMul_xor_left, ihc, ihd]

theorem gfMul_gfX {a b : Nat} (ha : a < 256) (hb : b < 256) : gfMul a (gfX b) = gfX (gfMul a b) := by
  rw [gfMul_comm ha (gfX_lt hb), gfX_gfMul hb, gfMul_comm hb ha]

theorem gfMul_assoc {a b c : Nat} (ha : a < 256) (hb : b < 256) (hc : c < 256) : gfMul (gfMul a b) c = gfMul a (gfMul b c) := by
  induction c, hc using byte_induction with
  | zero => simp
  | one => rw [gfMul_one hb, gfMul_one (gfMul_lt a b)]
  | double c hc ih => rw [gfMul_two_mul (gfMul_lt a b) hc, gfMul_two_mul hb hc, ih, gfMul_gfX ha (gfMul_lt b c)]
  | xor c hc d hd ihc ihd => rw [gfMul_xor_right, gfMul_xor_right, gfMul_xor_right, ihc, ihd]

/-! ## Powers and the inverse -/

theorem gfPow_lt (a n : Nat) : gfPow a n < 256 := by
  cases n with
  | zero => exact Nat.one_lt_succ_succ 254
  | succ n => exact gfMul_lt a _

theorem gfPow_one {a : Nat} (ha : a < 256) : gfPow a 1 = a := gfMul_one ha

theorem gfPow_add {a : Nat} (ha : a < 256) (m n : Nat) : gfPow a (m + n) = gfMul (gfPow a m) (gfPow a n) := by
  induction m with
  | zero => rw [Nat.zero_add, gfPow, one_gfMul (gfPow_lt a n)]
  | succ m ih => rw [Nat.succ_add, gfPow, gfPow, ih, gfMul_assoc ha (gfPow_lt a m) (gfPow_lt a n)]

/-- The seven squares multiplied together are a^254. -/
theorem gfInv_eq_gfPow {a : Nat} (ha : a < 256) : gfInv a = gfPow a 254 := by
  have hsquare : gfMul a a = gfPow a 2 := by rw [gfPow_add ha 1 1, gfPow_one ha]
  simp only [gfInv, hsquare, ← gfPow_add ha]

/-- The 255 products of a byte and its inverse. -/
theorem gfMul_gfInv : ∀ a < 256, a ≠ 0 → gfMul a (gfInv a) = 1 := by decide +kernel

/-! ## Lines, byte by byte -/

theorem byt_self (v i : Nat) : byt v i i = v >>> (8 * i) % 256 := by
  rw [byt, fld, show 8 * i + 7 + 1 - 8 * i = 8 by omega]
  rfl

theorem byt_xor (v w i : Nat) : byt (v ^^^ w) i i = byt v i i ^^^ byt w i i := by
  simp only [byt_self, Nat.shiftRight_xor_distrib, Nat.xor_mod_two_pow (n := 8)]

/-- A number of `k` bits is known by the bytes that hold them. -/
theorem eq_of_byt_eq {k n v w : Nat} (hv : v < 2 ^ k) (hw : w < 2 ^ k) (hk : k ≤ 8 * n) (h : ∀ i < n, byt v i i = byt w i i) : v = w := by
  refine Nat.eq_of_testBit_eq fun j => ?_
  by_cases hj : j < k
  · have hbit (u : Nat) : u.testBit j = (byt u (j / 8) (j / 8)).testBit (j % 8) := by
      rw [byt_self, Nat.testBit_mod_two_pow (j := 8), Nat.testBit_shiftRight, Nat.div_add_mod]
      simp [Nat.mod_lt]
    rw [hbit v, hbit w, h (j / 8) (by omega)]
  · have hpow : 2 ^ k ≤ 2 ^ j := Nat.pow_le_pow_right (by decide) (by omega)
    rw [Nat.testBit_lt_two_pow (hv.trans_le hpow), Nat.testBit_lt_two_pow (hw.trans_le hpow)]

theorem ofBytes_lt (bs : List Nat) : ofBytes bs < 2 ^ (8 * bs.length) := by
  induction bs with
  | nil => exact Nat.one_pos
  | cons b bs ih =>
    rw [ofBytes, List.length_cons, Nat.mul_succ, Nat.pow_add]
    omega

theorem byt_ofBytes (bs : List Nat) (i : Nat) : byt (ofBytes bs) i i = bs.getD i 0 % 256 := by
  induction bs generalizing i with
  | nil => simp [byt_self, ofBytes]
  | cons b bs ih =>
    cases i with
    | zero => simp [byt_self, ofBytes, Nat.add_mod]
    | succ i =>
      have hnext : ofBytes (b :: bs) >>> 8 = ofBytes bs := by
        rw [ofBytes, Nat.shiftRight_eq_div_pow]
        omega
      rw [List.getD_cons_succ, ← ih i, byt_self, byt_self, Nat.mul_succ, Nat.add_comm, Nat.shiftRight_add, hnext]

theorem toNat_ofNat_of_lt {w v : Nat} (h : v < 2 ^ w) : (BitVec.ofNat w v).toNat = v := by
  rw [BitVec.toNat_ofNat, Nat.mod_eq_of_lt h]

theorem gfScale_toNat (c : Nat) (l : Line) : (gfScale c l).toNat = ofBytes ((bytesOf 128 l.toNat).map (gfMul c)) := by
  have hbits : 8 * ((bytesOf 128 l.toNat).map (gfMul c)).length = 1024 := by simp [bytesOf]
  have hlt := ofBytes_lt ((bytesOf 128 l.toNat).map (gfMul c))
  rw [hbits] at hlt
  exact toNat_ofNat_of_lt hlt

/-- A scaled line scales each of its bytes (R71). -/
theorem byt_gfScale (c : Nat) {i : Nat} (l : Line) (hi : i < 128) : byt (gfScale c l).toNat i i = gfMul c (byt l.toNat i i) := by
  have hget : ((bytesOf 128 l.toNat).map (gfMul c)).getD i 0 = gfMul c (byt l.toNat i i) := by
    simp [bytesOf, List.getD_eq_getElem?_getD, hi, byt_self]
  rw [gfScale_toNat, byt_ofBytes, hget, Nat.mod_eq_of_lt (gfMul_lt _ _)]

theorem bitVec_eq_of_byt_eq {k n : Nat} {l m : BitVec k} (hk : k ≤ 8 * n) (h : ∀ i < n, byt l.toNat i i = byt m.toNat i i) : l = m :=
  BitVec.eq_of_toNat_eq (eq_of_byt_eq l.isLt m.isLt hk h)

theorem gfScale_xor (c : Nat) (l m : Line) : gfScale c (l ^^^ m) = gfScale c l ^^^ gfScale c m := by
  refine bitVec_eq_of_byt_eq (n := 128) le_rfl fun i hi => ?_
  rw [byt_gfScale c _ hi, BitVec.toNat_xor, BitVec.toNat_xor, byt_xor, byt_xor, byt_gfScale c l hi, byt_gfScale c m hi, gfMul_xor_right]

/-- Settles O55: the product is the reduced product of polynomials, distributes over XOR, has a^254 as its inverse, and scales a line byte
by byte. -/
theorem coderField : Obligations.CoderField :=
  ⟨fun _ _ ha hb => gfMul_eq_polyMod ha hb, fun a b c _ _ _ => gfMul_xor_right a b c,
    fun a ha h0 => ⟨gfMul_gfInv a ha h0, gfInv_eq_gfPow ha⟩, fun c _ l _ hi => byt_gfScale c l hi, fun c l m _ => gfScale_xor c l m⟩

end Sys2Proof.Proofs
end

section
/-! O58: headers round-trip. Fields laid end to end are read at their own bits, and a check value in the last 4 bytes leaves the bits below
it alone and depends on nothing else; so this holds of every structure that is packed fields under `withCrc`. -/

namespace Sys2Proof.Proofs

open Sys2Proof Sys2Proof.Machine

/-! ## Fields -/

theorem fld_lt (v hi lo : Nat) : fld v hi lo < 2 ^ (hi + 1 - lo) := Nat.mod_lt _ (Nat.two_pow_pos _)

/-- A field does not see the bits from its end on. -/
theorem fld_mod_two_pow {k hi : Nat} (v lo : Nat) (h : hi < k) : fld (v % 2 ^ k) hi lo = fld v hi lo := by
  refine Nat.eq_of_testBit_eq fun i => ?_
  simp only [fld, Nat.testBit_mod_two_pow, Nat.testBit_shiftRight]
  by_cases hi' : i < hi + 1 - lo
  · simp [show lo + i < k by omega]
  · simp [hi']

/-- What lies under a shifted number falls out below it. -/
theorem add_shiftLeft_shiftRight {w x : Nat} (hx : x < 2 ^ w) (y k : Nat) : (x + y <<< w) >>> (w + k) = y >>> k := by
  rw [Nat.shiftRight_add, Nat.shiftRight_eq_div_pow _ w, Nat.shiftLeft_eq, Nat.add_mul_div_right _ _ (Nat.two_pow_pos w),
    Nat.div_eq_of_lt hx, Nat.zero_add]

theorem add_shiftLeft_mod {w x : Nat} (hx : x < 2 ^ w) (y : Nat) : (x + y <<< w) % 2 ^ w = x := by
  rw [Nat.shiftLeft_eq, Nat.add_mul_mod_self_right, Nat.mod_eq_of_lt hx]

theorem add_shiftLeft_lt {w n x y : Nat} (hx : x < 2 ^ w) (hy : y < 2 ^ n) : x + y <<< w < 2 ^ (w + n) := by
  have hle : (y + 1) * 2 ^ w ≤ 2 ^ n * 2 ^ w := Nat.mul_le_mul_right _ hy
  rw [Nat.shiftLeft_eq, Nat.pow_add, Nat.mul_comm (2 ^ w)]
  rw [Nat.succ_mul] at hle
  omega

theorem pack_lt (fs : List (Nat × Nat)) : pack fs < 2 ^ (fs.map Prod.fst).sum := by
  induction fs with
  | nil => exact Nat.one_pos
  | cons f fs ih => exact add_shiftLeft_lt (Nat.mod_lt _ (Nat.two_pow_pos _)) ih

/-- The lowest field of a packed list is its first. -/
theorem fld_pack_head {w hi : Nat} (v : Nat) (fs : List (Nat × Nat)) (h : hi + 1 = w) : fld (pack ((w, v) :: fs)) hi 0 = v % 2 ^ w := by
  subst h
  exact add_shiftLeft_mod (Nat.mod_lt _ (Nat.two_pow_pos _)) _

/-- A field past the first is one of the rest, the width of the first lower. -/
theorem fld_pack_tail {w hi lo : Nat} (v : Nat) (fs : List (Nat × Nat)) (h : w ≤ lo) (hlo : lo ≤ hi) :
    fld (pack ((w, v) :: fs)) hi lo = fld (pack fs) (hi - w) (lo - w) := by
  obtain ⟨k, rfl⟩ := Nat.exists_eq_add_of_le h
  rw [fld, pack, add_shiftLeft_shiftRight (Nat.mod_lt _ (Nat.two_pow_pos _)), fld, Nat.add_sub_cancel_left,
    show hi - w + 1 - k = hi + 1 - (w + k) by omega]

/-! ## The check value (R327) -/

theorem crcBit_lt {c : Nat} (h : c < 2 ^ 32) : crcBit c < 2 ^ 32 := by
  have hhalf : c >>> 1 < 2 ^ 32 := (Nat.shiftRight_le c 1).trans_lt h
  unfold crcBit
  split
  · exact Nat.xor_lt_two_pow hhalf (by decide)
  · exact hhalf

theorem crcByte_lt {c : Nat} (h : c < 2 ^ 32) (b : Nat) : crcByte c b < 2 ^ 32 := by
  have hb : b % 256 < 2 ^ 32 := (Nat.mod_lt b (by decide : 0 < 256)).trans (by decide)
  unfold crcByte
  iterate 8 apply crcBit_lt
  exact Nat.xor_lt_two_pow h hb

theorem foldl_crcByte_lt (bs : List Nat) {c : Nat} (h : c < 2 ^ 32) : bs.foldl crcByte c < 2 ^ 32 := by
  induction bs generalizing c with
  | nil => exact h
  | cons b bs ih => exact ih (crcByte_lt h b)

theorem crcOf_lt (n v : Nat) : crcOf n v < 2 ^ 32 := Nat.xor_lt_two_pow (foldl_crcByte_lt _ (by decide)) (by decide)

/-- A check value depends on the bytes it covers. -/
theorem crcOf_mod (n v : Nat) : crcOf n (v % 2 ^ (8 * n)) = crcOf n v := by
  have hbytes : bytesOf n (v % 2 ^ (8 * n)) = bytesOf n v := by
    refine List.map_congr_left fun i hi => ?_
    have hi' : i < n := List.mem_range.mp hi
    rw [← byt_self, ← byt_self]
    exact fld_mod_two_pow v (8 * i) (by omega)
  rw [crcOf, hbytes, crcOf]

/-! ## A structure with its check value -/

section
variable {n : Nat} (hn : 4 ≤ n) (v : Nat)

theorem withCrc_mod : withCrc n v % 2 ^ (8 * (n - 4)) = v % 2 ^ (8 * (n - 4)) :=
  add_shiftLeft_mod (Nat.mod_lt _ (Nat.two_pow_pos _)) _

/-- The check value leaves the fields below it alone. -/
theorem fld_withCrc {hi : Nat} (lo : Nat) (h : hi < 8 * (n - 4)) : fld (withCrc n v) hi lo = fld v hi lo := by
  rw [← fld_mod_two_pow (withCrc n v) lo h, withCrc_mod, fld_mod_two_pow v lo h]

include hn

theorem withCrc_lt {k : Nat} (hk : k = 8 * n) : withCrc n v < 2 ^ k := by
  have h := add_shiftLeft_lt (Nat.mod_lt v (Nat.two_pow_pos (8 * (n - 4)))) (crcOf_lt (n - 4) v)
  rwa [show 8 * (n - 4) + 32 = k by omega] at h

theorem byt_withCrc : byt (withCrc n v) (n - 1) (n - 4) = crcOf (n - 4) v := by
  have hcrc : withCrc n v >>> (8 * (n - 4)) = crcOf (n - 4) v :=
    add_shiftLeft_shiftRight (Nat.mod_lt _ (Nat.two_pow_pos _)) _ 0
  rw [byt, fld, hcrc, show 8 * (n - 1) + 7 + 1 - 8 * (n - 4) = 32 by omega, Nat.mod_eq_of_lt (crcOf_lt _ _)]

/-- A structure encoded with its check value passes it. -/
theorem crcOk_withCrc : crcOk n (withCrc n v) = true := by
  rw [crcOk, beq_iff_eq, byt_withCrc hn, ← crcOf_mod _ (withCrc n v), withCrc_mod, crcOf_mod]

end

/-! ## Headers of lighters and their acknowledgements (R76, R83) -/

theorem lHdr_dec_enc {h : LHdr} (hf : h.Fits) : LHdr.dec h.enc = h := by
  have hbits {hi : Nat} (lo : Nat) (hhi : hi < 288) : fld h.enc hi lo = fld h.bits hi lo := fld_withCrc (n := 40) h.bits lo hhi
  simp only [LHdr.Fits, Nat.reducePow] at hf
  simp [LHdr.dec, hbits, LHdr.bits, lhWidths, fld_pack_head, fld_pack_tail, Nat.mod_eq_of_lt, hf]

theorem lAck_dec_enc {a : LAck} (hf : a.Fits) : LAck.dec a.enc = a := by
  have hbits {hi : Nat} (lo : Nat) (hhi : hi < 224) : fld a.enc hi lo = fld a.bits hi lo := fld_withCrc (n := 32) a.bits lo hhi
  simp only [LAck.Fits, Nat.reducePow] at hf
  simp [LAck.dec, hbits, LAck.bits, laWidths, fld_pack_head, fld_pack_tail, Nat.mod_eq_of_lt, hf]

/-- Settles O58: each field is read at its own bits, below the check value, which the encoding puts in the last 4 bytes. -/
theorem lighterHeaderRoundTrip : Obligations.LighterHeaderRoundTrip :=
  ⟨fun h hf => ⟨lHdr_dec_enc hf, crcOk_withCrc (by decide) h.bits, withCrc_lt (by decide) h.bits rfl⟩,
    fun a hf => ⟨lAck_dec_enc hf, crcOk_withCrc (by decide) a.bits, withCrc_lt (by decide) a.bits rfl⟩⟩

end Sys2Proof.Proofs
end

section
/-! O56: compression of a delta (R78, R79). The lanes of a line give it back; the bitmap form and the narrow form each give back the list
of lanes; and the form R79 picks is never longer than the raw line. -/

namespace Sys2Proof.Proofs

open Sys2Proof Sys2Proof.Machine

/-! ## Lists of fields of one width -/

theorem pack_cons_mod (w v : Nat) (fs : List (Nat × Nat)) : pack ((w, v) :: fs) % 2 ^ w = v % 2 ^ w :=
  add_shiftLeft_mod (Nat.mod_lt _ (Nat.two_pow_pos _)) _

theorem pack_cons_shiftRight (w v : Nat) (fs : List (Nat × Nat)) : pack ((w, v) :: fs) >>> w = pack fs :=
  add_shiftLeft_shiftRight (Nat.mod_lt _ (Nat.two_pow_pos _)) _ 0

theorem pack_map_lt {α : Type} (w : Nat) (f : α → Nat) (vs : List α) : pack (vs.map (fun v => (w, f v))) < 2 ^ (w * vs.length) := by
  simpa [Function.comp_def, Nat.mul_comm] using pack_lt (vs.map (fun v => (w, f v)))

/-- Fields of one width, each within it, are read back. -/
theorem unpack_pack {w : Nat} {vs : List Nat} (h : ∀ v ∈ vs, v < 2 ^ w) :
    unpack (List.replicate vs.length w) (pack (vs.map (fun v => (w, v)))) = vs := by
  induction vs with
  | nil => rfl
  | cons v vs ih =>
    obtain ⟨hv, hvs⟩ := List.forall_mem_cons.mp h
    rw [List.length_cons, List.replicate_succ, List.map_cons, unpack, pack_cons_mod, pack_cons_shiftRight, ih hvs, Nat.mod_eq_of_lt hv]

/-- Packing the fields of a number gives the number, as far as they reach. -/
theorem pack_unpack (w n v : Nat) : pack ((unpack (List.replicate n w) v).map (fun x => (w, x))) = v % 2 ^ (w * n) := by
  induction n generalizing v with
  | zero => rw [Nat.mul_zero, Nat.pow_zero, Nat.mod_one]; rfl
  | succ n ih =>
    rw [List.replicate_succ, unpack, List.map_cons, pack, ih, Nat.mod_mod, Nat.mul_succ, Nat.add_comm (w * n), Nat.pow_add,
      Nat.mod_mul, Nat.shiftRight_eq_div_pow, Nat.shiftLeft_eq, Nat.mul_comm (2 ^ w)]

theorem map_range_eq_unpack (w n v : Nat) : (List.range n).map (fun i => v >>> (w * i) % 2 ^ w) = unpack (List.replicate n w) v := by
  induction n generalizing v with
  | zero => rfl
  | succ n ih =>
    rw [List.range_succ_eq_map, List.map_cons, List.map_map, List.replicate_succ, unpack, ← ih]
    simp [Function.comp_def, Nat.mul_succ, ← Nat.shiftRight_add, Nat.add_comm]

/-! ## The lanes of a line -/

theorem lanes_eq_unpack (d : Line) : lanes d = unpack (List.replicate 64 16) d.toNat := by
  rw [← map_range_eq_unpack]
  refine List.map_congr_left fun i _ => ?_
  rw [fld, show 16 * i + 15 + 1 - 16 * i = 16 by omega]

@[simp] theorem length_lanes (d : Line) : (lanes d).length = 64 := by simp [lanes]

theorem lanes_lt {d : Line} {v : Nat} (h : v ∈ lanes d) : v < 2 ^ 16 := by
  obtain ⟨i, -, rfl⟩ := List.mem_map.mp h
  simpa [show 16 * i + 15 + 1 - 16 * i = 16 by omega] using fld_lt d.toNat (16 * i + 15) (16 * i)

/-- The lanes of a line give it back. -/
theorem ofLanes_lanes (d : Line) : ofLanes (lanes d) = d := by
  rw [ofLanes, lanes_eq_unpack, pack_unpack, Nat.mod_eq_of_lt d.isLt, BitVec.ofNat_toNat, BitVec.setWidth_eq]

theorem pack_replicate_zero (w n : Nat) : pack ((List.replicate n 0).map (fun v => (w, v))) = 0 := by
  induction n with
  | zero => rfl
  | succ n ih => rw [List.replicate_succ, List.map_cons, pack, ih, Nat.zero_mod, Nat.zero_shiftLeft]

theorem exists_lane_ne_zero {d : Line} (h : d ≠ 0) : ∃ v ∈ lanes d, v ≠ 0 := by
  by_contra hn
  have hzero : lanes d = List.replicate 64 0 := List.eq_replicate_iff.mpr ⟨length_lanes d, by simpa using hn⟩
  exact h (by rw [← ofLanes_lanes d, hzero, ofLanes, pack_replicate_zero]; rfl)

/-! ## The lane width (R79) -/

theorem lt_two_pow_bitLen (v : Nat) : v < 2 ^ bitLen v := by
  unfold bitLen
  split
  · next h => simp [h]
  · exact Nat.lt_log2_self

theorem le_foldl_or_init (vs : List Nat) (a : Nat) : a ≤ vs.foldl (fun a v => a ||| v) a := by
  induction vs generalizing a with
  | nil => exact le_rfl
  | cons x vs ih => exact Nat.left_le_or.trans (ih (a ||| x))

theorem le_foldl_or {vs : List Nat} {v : Nat} (h : v ∈ vs) (a : Nat) : v ≤ vs.foldl (fun a v => a ||| v) a := by
  induction vs generalizing a with
  | nil => cases h
  | cons x vs ih =>
    obtain rfl | hv := List.mem_cons.mp h
    · exact Nat.right_le_or.trans (le_foldl_or_init vs (a ||| v))
    · exact ih hv (a ||| x)

/-- The bits that hold the widest lane of a line. -/
def laneWidth (d : Line) : Nat := bitLen ((lanes d).foldl (fun a v => a ||| v) 0)

theorem lane_lt_two_pow {d : Line} {v : Nat} (h : v ∈ lanes d) : v < 2 ^ laneWidth d :=
  (le_foldl_or h 0).trans_lt (lt_two_pow_bitLen _)

theorem laneWidth_pos {d : Line} (h : d ≠ 0) : 1 ≤ laneWidth d := by
  obtain ⟨v, hv, hne⟩ := exists_lane_ne_zero h
  by_contra hw
  have hlt := lane_lt_two_pow hv
  rw [show laneWidth d = 0 by omega] at hlt
  omega

/-! ## The bitmap of lanes that are not 0 (R78) -/

/-- A bit for each value: whether it is not 0. -/
def laneMap (vs : List Nat) : Nat := pack (vs.map (fun v => (1, b2n (v ≠ 0))))

/-- The values that are not 0, 16 bits each. -/
def laneVals (vs : List Nat) : Nat := pack ((vs.filter (· ≠ 0)).map (fun v => (16, v)))

theorem laneMap_lt (vs : List Nat) : laneMap vs < 2 ^ vs.length := by
  have h := pack_map_lt 1 (fun v => b2n (v ≠ 0)) vs
  rwa [Nat.one_mul] at h

theorem laneMap_cons_mod (v : Nat) (vs : List Nat) : laneMap (v :: vs) % 2 = if v = 0 then 0 else 1 := by
  rw [laneMap, List.map_cons, ← Nat.pow_one 2, pack_cons_mod]
  by_cases h : v = 0 <;> simp [b2n, h]

theorem laneMap_cons_div (v : Nat) (vs : List Nat) : laneMap (v :: vs) / 2 = laneMap vs :=
  (Nat.shiftRight_eq_div_pow _ 1).symm.trans (pack_cons_shiftRight 1 _ _)

theorem expandLanes_laneMap {vs : List Nat} (h : ∀ v ∈ vs, v < 2 ^ 16) : expandLanes vs.length (laneMap vs) (laneVals vs) = vs := by
  induction vs with
  | nil => rfl
  | cons v vs ih =>
    obtain ⟨hv, hvs⟩ := List.forall_mem_cons.mp h
    rw [List.length_cons, expandLanes, laneMap_cons_mod, laneMap_cons_div]
    by_cases h0 : v = 0
    · simpa [h0, laneVals] using ih hvs
    · have hvals : laneVals (v :: vs) = pack ((16, v) :: (vs.filter (· ≠ 0)).map (fun v => (16, v))) := by simp [laneVals, h0]
      have hmod : laneVals (v :: vs) % 65536 = v := by
        rw [hvals]
        exact (pack_cons_mod 16 _ _).trans (Nat.mod_eq_of_lt hv)
      have hdiv : laneVals (v :: vs) / 65536 = laneVals vs := by
        rw [hvals]
        exact (Nat.shiftRight_eq_div_pow _ 16).symm.trans (pack_cons_shiftRight 16 _ _)
      rw [if_neg h0, if_pos rfl, hmod, hdiv, ih hvs]

theorem popCount_eq_sum (w v : Nat) : popCount w v = ((List.range w).map (fun i => b2n (v.testBit i))).sum := by
  rw [popCount, List.sum_eq_foldl, List.foldl_map]

theorem popCount_succ (w v : Nat) : popCount (w + 1) v = v % 2 + popCount w (v / 2) := by
  have hlow : b2n (v.testBit 0) = v % 2 := by
    rw [Nat.testBit_zero, b2n]
    obtain h | h := Nat.mod_two_eq_zero_or_one v <;> simp [h]
  rw [popCount_eq_sum, List.range_succ_eq_map, List.map_cons, List.sum_cons, hlow, List.map_map, popCount_eq_sum]
  simp [Function.comp_def, Nat.testBit_succ]

theorem popCount_laneMap (vs : List Nat) : popCount vs.length (laneMap vs) = (vs.filter (· ≠ 0)).length := by
  induction vs with
  | nil => rfl
  | cons v vs ih =>
    rw [List.length_cons, popCount_succ, laneMap_cons_mod, laneMap_cons_div, ih]
    by_cases h : v = 0 <;> simp [h, Nat.add_comm]

/-! ## The four forms (R78) -/

/-- The bytes of the bitmap form: the bitmap and the lanes that are not 0. -/
def bitmapLen (d : Line) : Nat := 8 + 2 * ((lanes d).filter (· ≠ 0)).length

/-- The bytes of the narrow form; a lane width above 15 has none, and loses to every other form. -/
def narrowLen (d : Line) : Nat := if laneWidth d ≤ 15 then 8 * laneWidth d else 1000

theorem bitmapLen_le (d : Line) : bitmapLen d ≤ 136 := by
  have h := List.length_filter_le (· ≠ 0) (lanes d)
  rw [length_lanes] at h
  unfold bitmapLen
  omega

theorem narrowLen_of_le {d : Line} (h : laneWidth d ≤ 15) : narrowLen d = 8 * laneWidth d := if_pos h

/-- A form that decompresses to `d`, in fields of the widths a descriptor has and no more bytes than the line. -/
structure Spells (c : Comp) (d : Line) : Prop where
  decompress_eq : decompress c = some d
  code_lt : c.code < 2 ^ 2
  b_lt : c.b < 2 ^ 4
  plen_le : c.plen ≤ 128
  pay_lt : c.pay < 2 ^ (8 * c.plen)

theorem toNat_lt_of_eq {k n : Nat} (x : BitVec k) (h : k = n) : x.toNat < 2 ^ n := h ▸ x.isLt

theorem spells_raw (d : Line) : Spells { code := 0, b := 0, plen := 128, pay := d.toNat } d where
  decompress_eq := by simp [decompress]
  code_lt := by simp
  b_lt := by simp
  plen_le := le_rfl
  pay_lt := toNat_lt_of_eq d (rfl : 1024 = 8 * 128)

theorem spells_zero : Spells { code := 1, b := 0, plen := 0, pay := 0 } 0 where
  decompress_eq := rfl
  code_lt := by simp
  b_lt := by simp
  plen_le := by decide
  pay_lt := by decide

theorem spells_bitmap {d : Line} (hle : bitmapLen d ≤ 128) :
    Spells { code := 2, b := 0, plen := bitmapLen d, pay := laneMap (lanes d) + laneVals (lanes d) <<< 64 } d where
  decompress_eq := by
    have hmap : laneMap (lanes d) < 2 ^ 64 := by simpa using laneMap_lt (lanes d)
    have hlow : (laneMap (lanes d) + laneVals (lanes d) <<< 64) % 2 ^ 64 = laneMap (lanes d) := add_shiftLeft_mod hmap _
    have hhigh : (laneMap (lanes d) + laneVals (lanes d) <<< 64) >>> 64 = laneVals (lanes d) := add_shiftLeft_shiftRight hmap _ 0
    have hcount := popCount_laneMap (lanes d)
    have hlanes := expandLanes_laneMap (fun v (hv : v ∈ lanes d) => lanes_lt hv)
    rw [length_lanes] at hcount hlanes
    simp only [decompress, hlow, hhigh, hcount, bitmapLen, hlanes, ofLanes_lanes, beq_self_eq_true, Bool.and_self, if_true]
  code_lt := by simp
  b_lt := by simp
  plen_le := hle
  pay_lt := by
    have hlt := add_shiftLeft_lt (laneMap_lt (lanes d)) (pack_map_lt 16 (fun v => v) ((lanes d).filter (· ≠ 0)))
    rw [length_lanes, show 64 + 16 * ((lanes d).filter (· ≠ 0)).length = 8 * bitmapLen d by unfold bitmapLen; omega] at hlt
    exact hlt

theorem spells_narrow {d : Line} (hpos : 1 ≤ laneWidth d) (hle : laneWidth d ≤ 15) :
    Spells { code := 3, b := laneWidth d, plen := 8 * laneWidth d, pay := pack ((lanes d).map (fun v => (laneWidth d, v))) } d where
  decompress_eq := by
    have hlanes := unpack_pack (fun v (hv : v ∈ lanes d) => lane_lt_two_pow hv)
    rw [length_lanes] at hlanes
    simp only [decompress, hlanes, ofLanes_lanes, hpos, hle, decide_true, beq_self_eq_true, Bool.and_self, if_true]
  code_lt := by simp
  b_lt := Nat.lt_succ_of_le hle
  plen_le := by dsimp only; omega
  pay_lt := by
    have hlt := pack_map_lt (laneWidth d) (fun v => v) (lanes d)
    rw [length_lanes, show laneWidth d * 64 = 8 * (8 * laneWidth d) by omega] at hlt
    exact hlt

theorem compress_of_eq_zero {d : Line} (h : d = 0) : compress d = { code := 1, b := 0, plen := 0, pay := 0 } := if_pos h

/-- The form of a delta that is not 0: raw where no form is shorter, else the shorter one, a tie to the bitmap (R79). -/
theorem compress_of_ne_zero {d : Line} (h : d ≠ 0) :
    compress d =
      if 128 ≤ bitmapLen d && 128 ≤ narrowLen d then { code := 0, b := 0, plen := 128, pay := d.toNat }
      else if bitmapLen d ≤ narrowLen d then
        { code := 2, b := 0, plen := bitmapLen d, pay := laneMap (lanes d) + laneVals (lanes d) <<< 64 }
      else { code := 3, b := laneWidth d, plen := narrowLen d, pay := pack ((lanes d).map (fun v => (laneWidth d, v))) } :=
  if_neg h

/-- Every delta is spelled by the form R79 picks for it. -/
theorem compress_spells (d : Line) : Spells (compress d) d := by
  by_cases h0 : d = 0
  · rw [compress_of_eq_zero h0, h0]
    exact spells_zero
  rw [compress_of_ne_zero h0]
  have hbitmap := bitmapLen_le d
  by_cases hraw : 128 ≤ bitmapLen d ∧ 128 ≤ narrowLen d
  · rw [if_pos (by simpa using hraw)]
    exact spells_raw d
  · rw [if_neg (by simpa using hraw)]
    split
    · exact spells_bitmap (by omega)
    · have hle : laneWidth d ≤ 15 := by
        by_contra hwide
        have : narrowLen d = 1000 := if_neg hwide
        omega
      rw [narrowLen_of_le hle]
      exact spells_narrow (laneWidth_pos h0) hle

/-- Settles O56: the form picked spells its delta, in at most the 128 B of the raw line. -/
theorem compressionRoundTrip : Obligations.CompressionRoundTrip := fun d =>
  ⟨(compress_spells d).decompress_eq, (compress_spells d).plen_le, (compress_spells d).pay_lt⟩

end Sys2Proof.Proofs
end

section
/-! O57: the body of a lighter (R77, R80). The mask names the lines in the order the body lists them, a descriptor's fields are those of its
line's form, and the reader, past `i` descriptors and `off` bytes, still has what the lines left over encode to. -/

namespace Sys2Proof.Proofs

open Sys2Proof Sys2Proof.Machine

/-! ## The order of the lines -/

theorem insertBy_perm {α : Type} (le : α → α → Bool) (a : α) (xs : List α) : (insertBy le a xs).Perm (a :: xs) := by
  induction xs with
  | nil => exact .refl _
  | cons x xs ih =>
    rw [insertBy]
    split
    · exact (ih.cons x).trans (.swap a x xs)
    · exact .refl _

theorem sortBy_perm {α : Type} (le : α → α → Bool) (xs : List α) : (sortBy le xs).Perm xs := by
  induction xs with
  | nil => exact .refl _
  | cons x xs ih => exact (insertBy_perm _ x _).trans (ih.cons x)

section
variable {α : Type} (key : α → Nat)

theorem pairwise_insertBy (a : α) {xs : List α} (h : xs.Pairwise (fun x y => key x ≤ key y)) :
    (insertBy (fun x y => decide (key x ≤ key y) && !decide (key y ≤ key x)) a xs).Pairwise (fun x y => key x ≤ key y) := by
  induction xs with
  | nil => exact List.pairwise_singleton _ a
  | cons x xs ih =>
    obtain ⟨hx, hxs⟩ := List.pairwise_cons.mp h
    rw [insertBy]
    split
    · next hlt =>
      have hxa : key x ≤ key a := by simp at hlt; omega
      exact List.pairwise_cons.mpr ⟨fun y hy => (List.mem_cons.mp ((insertBy_perm _ a xs).mem_iff.mp hy)).elim (· ▸ hxa) (hx y), ih hxs⟩
    · next hge =>
      have hax : key a ≤ key x := by simp at hge; omega
      exact List.pairwise_cons.mpr ⟨fun y hy => (List.mem_cons.mp hy).elim (· ▸ hax) fun hy => hax.trans (hx y hy), h⟩

theorem pairwise_sortBy (xs : List α) : (sortBy (fun x y => decide (key x ≤ key y)) xs).Pairwise (fun x y => key x ≤ key y) := by
  induction xs with
  | nil => exact .nil
  | cons x xs ih => exact pairwise_insertBy key x ih

end

theorem sortLines_perm (ls : List LLine) : (sortLines ls).Perm ls := sortBy_perm _ ls

/-- Lines whose numbers differ rise strictly once sorted. -/
theorem pairwise_sortLines {ls : List LLine} (h : (ls.map (·.l)).Nodup) : ((sortLines ls).map (·.l)).Pairwise (· < ·) := by
  have hnodup : ((sortLines ls).map (·.l)).Nodup := ((sortLines_perm ls).map _).nodup_iff.mpr h
  have hle : ((sortLines ls).map (·.l)).Pairwise (· ≤ ·) := List.pairwise_map.mpr (pairwise_sortBy (·.l) ls)
  exact (hle.and hnodup).imp fun h => lt_of_le_of_ne h.1 h.2

theorem testBit_foldl_lineMask (ls : List LLine) (a i : Nat) :
    (ls.foldl (fun a x => a ||| 2 ^ x.l) a).testBit i = true ↔ a.testBit i = true ∨ i ∈ ls.map (·.l) := by
  induction ls generalizing a with
  | nil => simp
  | cons x ls ih =>
    rw [List.foldl_cons, ih, Nat.testBit_or, Nat.testBit_two_pow, Bool.or_eq_true, decide_eq_true_iff, eq_comm (a := x.l),
      or_assoc, List.map_cons, List.mem_cons]

theorem mem_maskLines_lineMask {ls : List LLine} (h : ∀ x ∈ ls, x.l < 32) (i : Nat) :
    i ∈ maskLines (lineMask ls) ↔ i ∈ ls.map (·.l) := by
  have hlt : i ∈ ls.map (·.l) → i < 32 := by
    intro hi
    obtain ⟨x, hx, rfl⟩ := List.mem_map.mp hi
    exact h x hx
  rw [maskLines, List.mem_filter, List.mem_range, lineMask, testBit_foldl_lineMask, Nat.zero_testBit]
  simpa using hlt

/-- The mask of a lighter names its lines in ascending order (R76). -/
theorem maskLines_lineMask {ls : List LLine} (hnodup : (ls.map (·.l)).Nodup) (h : ∀ x ∈ ls, x.l < 32) :
    maskLines (lineMask ls) = (sortLines ls).map (·.l) := by
  refine (List.pairwise_lt_range.filter _).eq_of_mem_iff (pairwise_sortLines hnodup) fun i => ?_
  exact (mem_maskLines_lineMask h i).trans ((sortLines_perm ls).map _).mem_iff.symm

/-! ## A descriptor (R77) -/

/-- A descriptor: its fields, and reserved bits between them. -/
def descBits (code b plen crc : Nat) : Nat := pack [(2, code), (4, b), (2, 0), (8, plen), (16, 0), (32, crc)]

/-- The descriptor of a line. -/
def lineDesc (x : LLine) : Nat := descBits (compress x.delta).code (compress x.delta).b (compress x.delta).plen (lineCrc x.delta)

theorem bodyDescs_cons (x : LLine) (xs : List LLine) : bodyDescs (x :: xs) = lineDesc x + bodyDescs xs <<< 64 := rfl

theorem bodyPays_cons (x : LLine) (xs : List LLine) :
    bodyPays (x :: xs) = (compress x.delta).pay + bodyPays xs <<< (8 * (compress x.delta).plen) := rfl

theorem lineDesc_lt (x : LLine) : lineDesc x < 2 ^ 64 := pack_lt _

theorem bodyDescs_lt (xs : List LLine) : bodyDescs xs < 2 ^ (64 * xs.length) := by
  induction xs with
  | nil => exact Nat.one_pos
  | cons x xs ih =>
    rw [bodyDescs_cons, List.length_cons, Nat.mul_succ, Nat.add_comm (64 * xs.length)]
    exact add_shiftLeft_lt (lineDesc_lt x) ih

/-- The fields of a descriptor are read back; its reserved bits are 0. -/
theorem desc_fields {code b plen crc : Nat} (hcode : code < 4) (hb : b < 16) (hplen : plen < 256) (hcrc : crc < 4294967296) :
    fld (descBits code b plen crc) 1 0 = code ∧ fld (descBits code b plen crc) 5 2 = b ∧ fld (descBits code b plen crc) 7 6 = 0 ∧
      fld (descBits code b plen crc) 15 8 = plen ∧ fld (descBits code b plen crc) 31 16 = 0 ∧ fld (descBits code b plen crc) 63 32 = crc := by
  simp [descBits, fld_pack_head, fld_pack_tail, Nat.mod_eq_of_lt, hcode, hb, hplen, hcrc]

/-- A line's descriptor holds its form and the check value of its delta. -/
theorem lineDesc_fields (x : LLine) :
    fld (lineDesc x) 1 0 = (compress x.delta).code ∧ fld (lineDesc x) 5 2 = (compress x.delta).b ∧ fld (lineDesc x) 7 6 = 0 ∧
      fld (lineDesc x) 15 8 = (compress x.delta).plen ∧ fld (lineDesc x) 31 16 = 0 ∧ fld (lineDesc x) 63 32 = lineCrc x.delta := by
  have hs := compress_spells x.delta
  exact desc_fields hs.code_lt hs.b_lt (hs.plen_le.trans_lt (by decide)) (crcOf_lt 128 x.delta.toNat)

/-! ## Reading the body (R80) -/

/-- What the reader has left of `body`, past `i` descriptors and `off` bytes: the lines `xs`. -/
def BodyLeft (body i off : Nat) (xs : List LLine) : Prop :=
  body >>> (64 * i) % 2 ^ (64 * xs.length) = bodyDescs xs ∧ body >>> (8 * off) = bodyPays xs

section
variable {body i off : Nat} {x : LLine} {xs : List LLine} (h : BodyLeft body i off (x :: xs))
include h

theorem BodyLeft.desc : fld body (64 * i + 63) (64 * i) = lineDesc x := by
  have hdvd : 2 ^ 64 ∣ 2 ^ (64 * (x :: xs).length) := Nat.pow_dvd_pow 2 (by rw [List.length_cons]; omega)
  rw [fld, show 64 * i + 63 + 1 - 64 * i = 64 by omega, ← Nat.mod_mod_of_dvd _ hdvd, h.1, bodyDescs_cons,
    add_shiftLeft_mod (lineDesc_lt x)]

theorem BodyLeft.pay (hpos : (compress x.delta).plen ≠ 0) :
    fld body (8 * (off + (compress x.delta).plen) - 1) (8 * off) = (compress x.delta).pay := by
  rw [fld, h.2, bodyPays_cons,
    show 8 * (off + (compress x.delta).plen) - 1 + 1 - 8 * off = 8 * (compress x.delta).plen by omega,
    add_shiftLeft_mod (compress_spells x.delta).pay_lt]

theorem BodyLeft.next : BodyLeft body (i + 1) (off + (compress x.delta).plen) xs := by
  obtain ⟨hdesc, hpay⟩ := h
  constructor
  · rw [Nat.mul_succ, Nat.shiftRight_add, Nat.shiftRight_eq_div_pow _ 64, ← Nat.mod_mul_right_div_self, ← Nat.pow_add,
      show 64 + 64 * xs.length = 64 * (x :: xs).length by rw [List.length_cons]; omega, hdesc, ← Nat.shiftRight_eq_div_pow]
    exact add_shiftLeft_shiftRight (lineDesc_lt x) _ 0
  · rw [Nat.mul_add, Nat.shiftRight_add, hpay, bodyPays_cons]
    exact add_shiftLeft_shiftRight (compress_spells x.delta).pay_lt _ 0

end

theorem decLines_bodyLeft {body i off : Nat} {xs : List LLine} (h : BodyLeft body i off xs) :
    decLines body (xs.map (·.l)) i off = some (xs.map (fun x => (x.l, x.delta))) := by
  induction xs generalizing i off with
  | nil => rfl
  | cons x xs ih =>
    obtain ⟨hcode, hb, hres, hplen, hres', hcrc⟩ := lineDesc_fields x
    have hpay : (if (compress x.delta).plen = 0 then 0 else
        fld body (8 * (off + (compress x.delta).plen) - 1) (8 * off)) = (compress x.delta).pay := by
      split
      · next h0 =>
        have hlt := (compress_spells x.delta).pay_lt
        rw [h0] at hlt
        omega
      · next hpos => exact h.pay hpos
    simp only [List.map_cons, decLines, h.desc, hcode, hb, hres, hplen, hres', hcrc, hpay, (compress_spells x.delta).decompress_eq, ih h.next]
    simp

/-- Settles O57: the mask lists the lines as the body does, and the reader gives back each of them. -/
theorem lighterBodyRoundTrip : Obligations.LighterBodyRoundTrip := by
  intro ls hnodup hlt
  have hleft : BodyLeft (encBody ls).1 0 (8 * (sortLines ls).length) (sortLines ls) :=
    ⟨add_shiftLeft_mod (bodyDescs_lt _) _, by
      rw [← Nat.mul_assoc]
      exact add_shiftLeft_shiftRight (bodyDescs_lt _) _ 0⟩
  rw [decBody, maskLines_lineMask hnodup hlt, List.length_map]
  exact decLines_bodyLeft hleft

end Sys2Proof.Proofs
end

section
/-! O9, O16 and O22: the timers of a port position, and the frames and messages of convoy coding. What an arrival does is said once: a frame
that its port takes as the packet of the command, and a message that its position hears. -/

namespace Sys2Proof.Proofs

open Sys2Proof Sys2Proof.Machine Sys2Proof.Laws

/-! ## Arrivals -/

/-- With power, a frame that its port takes as the packet of the command's row does what the row gives at the state that looks at it. -/
theorem arrival_frameIn {s : State} {l vc : Nat} {f : Frame} {row : Bool} {k : State → State} {t : State} (hp : s.Powered)
    (ht : s.Takes l vc f) (hr : row = true) (hk : k (s.onFrame l f) = t) :
    s.arrival (s.frameIn l vc f row k) = .next (s.after (fun _ => t.rxReturn l f)) := by
  rw [frameIn_takes ht hr, arrival_powered hp, hk]

/-- With power, a message that its position hears does what its kind gives, in Run again if it found the harbour in Idle. -/
theorem arrival_msgIn {s : State} {l : Nat} {t : Tx} {k : State → State} (hp : s.Powered) (hh : s.Hears l)
    (hk : s.wake.msgAct l t = k s) : s.arrival (s.msgIn l t) = .next (s.after k) := by
  rw [msgIn_hears hh, arrival_powered hp, hk, State.after, State.after]

/-! ## Timers -/

/-- Settles O9: each of these commands is its rule, run at a position the integration has. -/
theorem portTimersRun : Obligations.PortTimersRun := by
  intro s pos n hp hport
  and_intros <;> exact atPort_powered hp hport _

/-! ## Lighters, their answers and votes -/

/-- A delta lighter whose header is whole, of the active job, goes to its stream's rules (R80, R84). -/
theorem lighterIn_active {s : State} {l : Nat} {f : Frame} (hcrc : crcOk 40 (f.pkt % 2 ^ 320) = true)
    (hjob : s.JobTraffic (LHdr.dec f.pkt).job f.src) : s.lighterIn l f = (s.lighterJob l f (LHdr.dec f.pkt)).berthSync l := by
  unfold State.lighterIn
  rw [hcrc]
  exact congrArg (fun t => t.berthSync l) (jobPkt_active hjob)

/-- An acknowledgement that is whole, of the active job, goes to the copy it names (R83, R84). -/
theorem ackFrame_active {s : State} {l : Nat} {f : Frame} (hlen : f.len = 32) (hcrc : crcOk 32 (f.pkt % 2 ^ 256) = true)
    (hjob : s.JobTraffic (LAck.dec f.pkt).job f.src) : s.ackFrame l f = s.lighterAck l (LAck.dec f.pkt) := by
  unfold State.ackFrame
  rw [hlen, hcrc]
  exact jobPkt_active hjob

/-- Settles O16: each packet is taken as the one of its row, and does there what its kind does. -/
theorem convoyFramesAct : Obligations.ConvoyFramesAct := by
  intro s l f hp
  refine ⟨fun ht hkind hcrc hjob => ?_, fun ht hlen hcrc hjob => ⟨fun hst => ?_, fun hst => ?_⟩, fun ht _ => ?_⟩
  · exact arrival_frameIn hp ht (by simp [hkind]) (lighterIn_active hcrc hjob)
  · exact arrival_frameIn hp ht (by simp [hst]) (ackFrame_active hlen hcrc hjob)
  · exact arrival_frameIn hp ht (by simp [hst]) (ackFrame_active hlen hcrc hjob)
  · and_intros <;> exact fun hv => arrival_frameIn hp ht (by simp [hv]) rfl

/-! ## Anchor and stream-reset messages -/

/-- A request without a layout past its job gate, of the device's own epoch, is held where it has to wait (R127, R151). -/
theorem askIn_waits {s : State} {l job src : Nat} {t : Tx} {k : State → State} (h : s.JobTraffic job src)
    (ht : t.askEpoch = some s.job.epoch) (hw : s.msgWaits t = true) : s.askIn l job src t k = s.holdMsg l job t := by
  unfold State.askIn
  rw [jobMsg_active h, hw, ht]
  simp

section
variable {s : State} {a : AnchorReq} (hjob : s.JobTraffic a.hd.job a.hd.src) (hepoch : a.hd.epoch = s.job.epoch) (l dev : Nat)
include hepoch

theorem askEpoch_anchorReq : (Tx.anchorReq dev a).askEpoch = some s.job.epoch := congrArg some hepoch

theorem msgWaits_anchorReq : s.msgWaits (.anchorReq dev a) = (a.stripe != 0xFFFFFFFF && a.restore.any s.liveStep) := by
  simp [State.msgWaits, askEpoch_anchorReq hepoch]

include hjob

theorem msgAct_streamReset (h : a.stripe = 0xFFFFFFFF) : s.msgAct l (.anchorReq dev a) = s.resetIn l a := by
  have hw : s.msgWaits (.anchorReq dev a) = false := by simp [msgWaits_anchorReq hepoch, h]
  simp [State.msgAct, askIn_now hjob (askEpoch_anchorReq hepoch dev) hw, h]

variable (hstripe : a.stripe < 0xFFFFFFFF)
include hstripe

theorem msgAct_anchorReq (h : a.restore = []) : s.msgAct l (.anchorReq dev a) = s.answerAnchor l a := by
  have hw : s.msgWaits (.anchorReq dev a) = false := by simp [msgWaits_anchorReq hepoch, h]
  simp [State.msgAct, askIn_now hjob (askEpoch_anchorReq hepoch dev) hw, hstripe.ne, h]

/-- A request that lists steps, none of them open here, restores its stripe (R127). -/
theorem msgAct_restore (h : a.restore ≠ []) (hdone : ∀ st ∈ a.restore, s.liveStep st = false) :
    s.msgAct l (.anchorReq dev a) = s.restoreConvoy l a.hd.convoy a.restore (some a.stripe) := by
  have hw : s.msgWaits (.anchorReq dev a) = false := by simpa [msgWaits_anchorReq hepoch] using fun _ => hdone
  simp [State.msgAct, askIn_now hjob (askEpoch_anchorReq hepoch dev) hw, hstripe.ne, h]

/-- One that lists a step still open here waits (R127, log 71). -/
theorem msgAct_restore_waits {st : Nat} (hst : st ∈ a.restore) (hopen : s.liveStep st = true) :
    s.msgAct l (.anchorReq dev a) = s.holdMsg l a.hd.job (.anchorReq dev a) := by
  have hw : s.msgWaits (.anchorReq dev a) = true := by simpa [msgWaits_anchorReq hepoch, hstripe.ne] using ⟨st, hst, hopen⟩
  rw [State.msgAct, askIn_waits hjob (askEpoch_anchorReq hepoch dev) hw]

end

/-- The command takes its request as an anchor request: its stripe is not the one of a stream reset (R92). -/
theorem exec_anchorRequest {a : AnchorReq} (h : a.stripe < 0xFFFFFFFF) (l : Nat) (s : State) :
    exec (.anchorRequest l a) s = s.arrival (s.msgIn l (.anchorReq s.ident.device a)) := by
  have ha : { a with stripe := a.stripe % 0xFFFFFFFF } = a := by rw [Nat.mod_eq_of_lt h]
  exact congrArg (fun a => s.arrival (s.msgIn l (.anchorReq s.ident.device a))) ha

/-- The command takes its request as a stream reset: its stripe is all ones (R93). -/
theorem exec_streamReset {a : AnchorReq} (h : a.stripe = 0xFFFFFFFF) (l : Nat) (s : State) :
    exec (.streamReset l a) s = s.arrival (s.msgIn l (.anchorReq s.ident.device a)) := by
  have ha : { a with stripe := 0xFFFFFFFF } = a := by rw [← h]
  exact congrArg (fun a => s.arrival (s.msgIn l (.anchorReq s.ident.device a))) ha

/-- Settles O22: a request goes past the gate of its job and epoch to the rule its stripe and its list of steps name, an answer past the
gate of its job. -/
theorem anchorMessagesAct : Obligations.AnchorMessagesAct := by
  intro s l a x y hp hh
  refine ⟨fun hjob hepoch => ⟨fun hstripe => ⟨fun hnone => ?_, fun hsome hdone => ?_, fun st hst hopen => ?_⟩, fun hstripe => ?_⟩,
    fun hjob => ?_, fun hjob => ?_⟩
  · rw [exec_anchorRequest hstripe]
    exact arrival_msgIn hp hh (msgAct_anchorReq hjob hepoch l _ hstripe hnone)
  · rw [exec_anchorRequest hstripe]
    exact arrival_msgIn hp hh (msgAct_restore hjob hepoch l _ hstripe hsome hdone)
  · rw [exec_anchorRequest hstripe]
    exact arrival_msgIn hp hh (msgAct_restore_waits hjob hepoch l _ hstripe hst hopen)
  · rw [exec_streamReset hstripe]
    exact arrival_msgIn hp hh (msgAct_streamReset hjob hepoch l _ hstripe)
  · exact arrival_msgIn hp hh (askIn_answer hjob rfl)
  · exact arrival_msgIn hp hh (askIn_answer hjob rfl)

end Sys2Proof.Proofs
end

section
/-! O17: the fence-class packets. One that is whole, of the active job, does what its kind does; the arrival rule does the rest. -/

namespace Sys2Proof.Proofs

open Sys2Proof Sys2Proof.Machine Sys2Proof.Laws

/-- A fence-class packet that is whole, of the active job, goes to the rule of its kind (R116, R144, R145, R149, R166). -/
theorem fenceIn_active {s : State} {l : Nat} {f : Frame} (hlen : f.len = 64) (hcrc : crcOk 64 (f.pkt % 2 ^ 512) = true)
    (hjob : s.JobTraffic (fld f.pkt 31 16) f.src) :
    (pktKind f = 1 → s.fenceIn l f = s.noticeIn f) ∧ (pktKind f = 2 → s.fenceIn l f = s.taintIn f.pkt) ∧
      (pktKind f = 3 → s.fenceIn l f = s.abortIn f.pkt) ∧ (pktKind f = 4 → s.fenceIn l f = s.displaceIn f) := by
  have hwhole : ¬ (f.len != 64 || !crcOk 64 (f.pkt % 2 ^ 512)) = true := by rw [hlen, hcrc]; decide
  unfold State.fenceIn
  rw [if_neg hwhole, jobPkt_active hjob]
  and_intros <;> exact fun hkind => by simp only [hkind]

/-- With power, a fence-class packet that its port takes, of the kind of the command's row, does what that kind gives. -/
theorem arrival_fenceIn {s t : State} {l n : Nat} {f : Frame} (hp : s.Powered) (ht : s.Takes l 0 f)
    (hact : pktKind f = n → (s.onFrame l f).fenceIn l f = t) (hkind : pktKind f = n) :
    s.arrival (s.frameIn l 0 f (pktKind f == n) (fun s => s.fenceIn l f)) = .next (s.after (fun _ => t.rxReturn l f)) :=
  arrival_frameIn hp ht (beq_iff_eq.mpr hkind) (hact hkind)

/-- Settles O17: each packet is taken as the one of its row, and does there what its kind does. -/
theorem fenceFramesAct : Obligations.FenceFramesAct := by
  intro s l f hp ht hlen hcrc hjob
  obtain ⟨hnotice, htaint, habort, hdisplace⟩ := fenceIn_active (l := l) hlen hcrc hjob
  exact ⟨arrival_fenceIn hp ht hnotice, arrival_fenceIn hp ht htaint, arrival_fenceIn hp ht habort, arrival_fenceIn hp ht hdisplace⟩

end Sys2Proof.Proofs
end

section
/-! O11: failure of a quay and its relief. What a missed heartbeat and a broken ring link do to a quay in service. -/

namespace Sys2Proof.Proofs

open Sys2Proof Sys2Proof.Machine Sys2Proof.Laws

/-- The fourth heartbeat missed in a row, of a quay that another one watches, is a fatal error of that quay (R162). -/
theorem heartbeatLost_fourth {s : State} {p : Nat} (hin : (s.quay p).inService = true) (hclock : s.pwr.state ≠ .hold)
    (hwatch : (s.watcher p).isSome = true) (hmissed : 3 ≤ (s.quay p).hb) :
    s.heartbeatLost p = (s.modQuay p (fun q => { q with hb := q.hb + 1 })).fatal p := by
  have hnone : (s.watcher p).isNone = false := by rw [← Option.not_isSome, hwatch]; rfl
  have hfourth : ¬ (s.quay p).hb + 1 < 4 := by omega
  simp [State.heartbeatLost, hin, hclock, hnone, hfourth]

theorem ringLost_inService {s : State} {p : Nat} (hin : (s.quay p).inService = true) : s.ringLost p = s.fatal p := if_pos hin

/-- Settles O11: each way to fail is a fatal error of the quay, and each report of the die is the next stage of its relief. -/
theorem reliefRuns : Obligations.ReliefRuns := by
  intro s p hp
  refine ⟨fun hin hclock hwatch hmissed => ?missed, ?fatal, fun hin => ?link, ?power, ?crossbar, ?tables⟩
  case missed => exact command_gives hp (heartbeatLost_fourth hin hclock hwatch hmissed)
  case link => exact command_gives hp (ringLost_inService hin)
  case fatal | power | crossbar | tables => exact command_powered hp _

end Sys2Proof.Proofs
end

section
/-! O23, O24 and O25: salvage and job-image messages. A request of the active job is taken at the device's own epoch, dropped at an older
one and held at a newer one; an answer is taken whatever its epoch (R144, log 42). -/

namespace Sys2Proof.Proofs

open Sys2Proof Sys2Proof.Machine Sys2Proof.Laws

/-! ## The epoch of a request -/

section
variable {s : State} {job src e : Nat} {t : Tx} (hjob : s.JobTraffic job src) (ht : t.askEpoch = some e)
include hjob ht

theorem askIn_older (he : e < s.job.epoch) (l : Nat) (k : State → State) : s.askIn l job src t k = s.pktDrop l := by
  rw [State.askIn, jobMsg_active hjob, ht]
  exact if_pos (decide_eq_true he)

theorem askIn_newer (he : s.job.epoch < e) (l : Nat) (k : State → State) : s.askIn l job src t k = s.holdMsg l job t := by
  have hwaits : s.msgWaits t = true := by simp [State.msgWaits, ht, he]
  rw [State.askIn, jobMsg_active hjob, ht, hwaits]
  simp [he.le]

end

/-- Settles O25: an anchor request, a freeze and a pass go to one gate, which looks at the epoch each carries. -/
theorem requestEpochs : Obligations.RequestEpochs := by
  intro s l a m hp hh
  refine ⟨fun hjob hstripe => ⟨fun hold => ?_, fun hnew => ?_⟩, fun hjob => ⟨fun hold => ⟨?_, ?_⟩, fun hnew => ⟨?_, ?_⟩⟩⟩
  · rw [exec_anchorRequest hstripe]
    exact arrival_msgIn hp hh (askIn_older hjob rfl hold l _)
  · rw [exec_anchorRequest hstripe]
    exact arrival_msgIn hp hh (askIn_newer hjob rfl hnew l _)
  · exact arrival_msgIn hp hh (askIn_older hjob rfl hold l _)
  · exact arrival_msgIn hp hh (askIn_older hjob rfl hold l _)
  · exact arrival_msgIn hp hh (askIn_newer hjob rfl hnew l _)
  · exact arrival_msgIn hp hh (askIn_newer hjob rfl hnew l _)

/-! ## Salvage messages -/

section
variable {s : State} {m : SalvMsg} (hjob : s.JobTraffic m.hd.job m.hd.src) (l dev : Nat)

section
variable (hepoch : m.hd.epoch = s.job.epoch)
include hepoch

/-- A freeze of the device's own epoch waits for aborts alone (R151). -/
theorem msgWaits_freeze : s.msgWaits (.freeze dev m) = s.freezeWaits m := by simp [State.msgWaits, Tx.askEpoch, hepoch]

theorem msgWaits_pass : s.msgWaits (.pass dev m) = false := by simp [State.msgWaits, Tx.askEpoch, hepoch]

include hjob

theorem msgAct_freeze (hfree : s.freezeWaits m = false) : s.msgAct l (.freeze dev m) = s.salvFreeze l m :=
  askIn_now hjob (congrArg some hepoch) ((msgWaits_freeze dev hepoch).trans hfree)

theorem msgAct_freeze_waits (hwaits : s.freezeWaits m = true) : s.msgAct l (.freeze dev m) = s.holdMsg l m.hd.job (.freeze dev m) :=
  askIn_waits hjob (congrArg some hepoch) ((msgWaits_freeze dev hepoch).trans hwaits)

/-- A pass carries lines for a helper, or, marked bad, the lines an audit found wrong (R153, R350). -/
theorem msgAct_pass : s.msgAct l (.pass dev m) = if m.bad then s.auditFound l m else s.helperPass l m :=
  askIn_now hjob (congrArg some hepoch) (msgWaits_pass dev hepoch)

end

include hjob

/-- A chain sum with devices still to come goes on along the chain; else it has arrived (R156). -/
theorem msgAct_chain : s.msgAct l (.chain dev m) = if m.chain.isEmpty then s.chainIn l m else s.chainHop l m := askIn_answer hjob rfl

end

/-- Settles O23: a freeze and a pass go past the gate of their job and epoch, the answers past the gate of their job. -/
theorem salvageMessagesAct : Obligations.SalvageMessagesAct := by
  intro s l m hp hh hjob
  refine ⟨fun hepoch => ⟨fun hfree => ?_, fun hwaits => ?_, fun hgood => ?_, fun hbad => ?_⟩, fun hlast => ?_, fun hmore => ?_, ?_, ?_⟩
  · exact arrival_msgIn hp hh (msgAct_freeze hjob l _ hepoch hfree)
  · exact arrival_msgIn hp hh (msgAct_freeze_waits hjob l _ hepoch hwaits)
  · exact arrival_msgIn hp hh ((msgAct_pass hjob l _ hepoch).trans (by rw [hgood]; rfl))
  · exact arrival_msgIn hp hh ((msgAct_pass hjob l _ hepoch).trans (if_pos hbad))
  · exact arrival_msgIn hp hh ((msgAct_chain hjob l _).trans (if_pos (List.isEmpty_iff.mpr hlast)))
  · exact arrival_msgIn hp hh ((msgAct_chain hjob l _).trans (if_neg (mt List.isEmpty_iff.mp hmore)))
  · exact arrival_msgIn hp hh (askIn_answer hjob rfl)
  · exact arrival_msgIn hp hh (askIn_answer hjob rfl)

/-! ## Pieces of the job image -/

theorem msgWaits_imgReq {s : State} {m : ImgMsg} (hepoch : m.epoch = s.job.epoch) (dev : Nat) : s.msgWaits (.imgReq dev m) = false := by
  simp [State.msgWaits, Tx.askEpoch, hepoch]

/-- Settles O24: both messages are of logical quay 0; the request goes past the gate of its epoch too. -/
theorem imageMessagesAct : Obligations.ImageMessagesAct := by
  intro s m hp hh hjob
  refine ⟨fun hepoch => ?_, ?_⟩
  · exact arrival_msgIn hp hh (askIn_now hjob (congrArg some hepoch) (msgWaits_imgReq hepoch _))
  · exact arrival_msgIn hp hh (askIn_answer hjob rfl)

end Sys2Proof.Proofs
end

section
/-! O29: the risk grade and the sideband inputs, one lemma per input and case. -/

namespace Sys2Proof.Proofs

open Sys2Proof Sys2Proof.Machine Sys2Proof.Laws

/-! ## PRESENCE (R416, R464) -/

/-- The state that has seen PRESENCE rise. -/
def presenceSeen (s : State) : State :=
  { s with sec := { s.sec with presence := true }, sb := { s.sb with presSince := some s.clock } }

section
variable {s : State} (hforced : s.sb.presForced = false) (hlow : s.sec.presence = false)
include hforced hlow

/-- In Hold a rise is left to the first scan after it (R425). -/
theorem presenceChange_inHold (hhold : s.pwr.state = .hold) :
    s.presenceChange true = { presenceSeen s with sec := { (presenceSeen s).sec with presLate := true } } := by
  simp [State.presenceChange, presenceSeen, hforced, hlow, hhold]

theorem presenceChange_overBrokenLoop (hhold : s.pwr.state ≠ .hold) (hbroken : s.sec.state = .sealed ∧ s.sec.loop = false) :
    s.presenceChange true = (presenceSeen s).evH .secPresenceFault := by
  simp [State.presenceChange, presenceSeen, hforced, hlow, hhold, hbroken]

theorem presenceChange_rises (hhold : s.pwr.state ≠ .hold) (hsound : ¬ (s.sec.state = .sealed ∧ s.sec.loop = false)) :
    s.presenceChange true = presenceSeen s := by
  simp [State.presenceChange, presenceSeen, hforced, hlow, hhold, hsound]

end

/-- PRESENCE high for longer than its limit ends Maintenance (R464). -/
theorem presenceMax_inMaintenance {s : State} {t : Nat} (hsince : s.sb.presSince = some t) (hread : s.charterRead = true)
    (hpassed : s.passed t (s.hpar .presenceMax) = true) (hmaint : s.sec.state = .maintenance) :
    s.presenceMax =
      State.setSec { s with sec := { s.sec with presence := false }, sb := { s.sb with presSince := none, presForced := true, stuck := true } }
        .sealed 0 := by
  simp [State.presenceMax, hsince, hread, hpassed, hmaint]

/-! ## Glitches (R463, R466) -/

/-- A glitch raises the counter of its own pin, up to 0xFF, and changes nothing else. -/
theorem glitch_eq (s : State) (pin : SbPin) :
    s.glitch pin = { s with sb := { s.sb with
      glPresence := if pin = .presence then min (s.sb.glPresence + 1) 0xFF else s.sb.glPresence
      glLoop := if pin = .sealLoop then min (s.sb.glLoop + 1) 0xFF else s.sb.glLoop
      glGrade := if pin = .pilotGrade then min (s.sb.glGrade + 1) 0xFF else s.sb.glGrade
      glStop := if pin = .failStop then min (s.sb.glStop + 1) 0xFF else s.sb.glStop } } := by
  cases pin <;> rfl

/-! ## The risk grade (R178, R464) -/

theorem gradeSettle_charterRead {s : State} (hread : s.charterRead = true) :
    s.gradeSettle = State.setGrade { s with sb := { s.sb with unsettled := true } } 7 := by
  simp [State.gradeSettle, hread]

/-- A lower grade held for GRADE_HOLD that is still the input comes into force. -/
theorem gradeHold_held {s : State} {g t : Nat} (hlower : s.grade.lower = some (g, t)) (hpassed : s.passed t (s.hpar .gradeHold) = true)
    (hinput : (if s.sb.unsettled then 7 else s.sb.gradeIn) = g) : s.gradeHold = s.setGrade g := by
  simp [State.gradeHold, hlower, hpassed, hinput]

/-! ## The seal loop and the stop input, seen by a quay in service (R416, R417, R463, R465) -/

section
variable {s : State} {p : Nat} (hin : (s.quay p).inService = true)
include hin

/-- The first break seen is latched; only logical quay 0 has the loop read as broken (R463). -/
theorem loopBreak_latches (hwhole : s.sec.broken = false) :
    s.loopBreak p =
      (let s1 := { s with sec := { s.sec with loop := s.sec.loop && !(p == s.q0), broken := true, tamper := true } }
       (if s.sec.state = .maintenance then s1.setSec .sealed 1 else s1).evH .secTamper [(2, s.sec.state.code)]) := by
  cases hq0 : p == s.q0
  · simp [State.loopBreak, hin, hwhole, hq0]
  · simp [State.loopBreak, hin, hwhole, hq0]

/-- An armed stop takes effect in Run, once; only logical quay 0 has the input read as asserted (R463). -/
theorem failStop_armed (harmed : s.sb.fsArmed = true) (hrun : s.pwr.state = .run) :
    s.failStop p = State.stopNow { s with sb := { s.sb with fsIn := (p == s.q0) || s.sb.fsIn, fsArmed := false } } := by
  cases hq0 : p == s.q0
  · simp [State.failStop, hin, harmed, hrun, hq0]
  · simp [State.failStop, hin, harmed, hrun, hq0]

end

/-- Settles O29: one clause per input and case, each what its command's effect gives. -/
theorem sidebandRuns : Obligations.SidebandRuns := by
  intro s p g pin hp
  refine ⟨?grade, ?fall, fun hforced hlow => ?rise, ?restore, ?glitch, fun hread => ?settle, fun g t hlower hpassed hinput => ?lower,
    fun t hsince hread hpassed hmaint => ?expiry, fun hin hwhole => ?tamper, fun hin harmed hrun => ?stop, ?rearm⟩
  case grade => exact aside_powered hp (fun s => s.pilotGrade g)
  case fall => exact aside_powered hp (fun s => s.presenceChange false)
  case rise =>
    intro t
    refine (aside_powered hp (fun s => s.presenceChange true)).trans (congrArg _ ?_)
    split_ifs with hhold hbroken
    · exact congrArg (·.keep s) (presenceChange_inHold hforced hlow hhold)
    · exact congrArg (·.keep s) (presenceChange_overBrokenLoop hforced hlow hhold hbroken)
    · exact congrArg (·.keep s) (presenceChange_rises hforced hlow hhold hbroken)
  case restore => exact aside_powered hp State.loopRestore
  case glitch =>
    have hglitch := aside_powered hp (fun s => s.glitch pin)
    rw [glitch_eq] at hglitch
    exact ⟨_, _, _, _, _, hglitch, rfl, rfl, rfl, rfl, rfl, rfl⟩
  case settle => exact (aside_powered hp State.gradeSettle).trans (by rw [gradeSettle_charterRead hread])
  case lower => exact command_gives hp (gradeHold_held hlower hpassed hinput)
  case expiry => exact command_gives hp (presenceMax_inMaintenance hsince hread hpassed hmaint)
  case tamper => exact command_gives hp (loopBreak_latches hin hwhole)
  case stop => exact command_gives hp (failStop_armed hin harmed hrun)
  case rearm => exact command_powered hp _

end Sys2Proof.Proofs
end

section
/-! O59: collective, remote-memory and refresh headers round-trip. Each is packed fields under its check value, as a lighter's header is; a
flag is a field of one bit. -/

namespace Sys2Proof.Proofs

open Sys2Proof Sys2Proof.Machine

/-- A flag is read as the field of its one bit. -/
theorem bitOf_eq_fld (v i : Nat) : bitOf v i = (fld v i i == 1) := by
  rw [bitOf, fld, Nat.add_sub_cancel_left, Nat.pow_one, Nat.testBit_eq_decide_div_mod_eq, Nat.shiftRight_eq_div_pow, beq_eq_decide]

/-- A Boolean packed as a bit is read back. -/
theorem b2n_mod_two_beq_one (b : Bool) : (b2n b % 2 == 1) = b := by cases b <;> rfl

theorem cHdr_dec_enc {h : CHdr} (hf : h.Fits) : CHdr.dec h.enc = h := by
  simp only [CHdr.Fits, Nat.reducePow] at hf
  simp [CHdr.dec, CHdr.enc, byt, fld_withCrc, fld_pack_head, fld_pack_tail, Nat.mod_eq_of_lt, hf]

theorem rHdr_dec_enc {h : RHdr} (hf : h.Fits) : RHdr.dec h.enc = h := by
  simp only [RHdr.Fits, Nat.reducePow] at hf
  simp [RHdr.dec, RHdr.enc, byt, bitOf_eq_fld, fld_withCrc, fld_pack_head, fld_pack_tail, b2n_mod_two_beq_one, Nat.mod_eq_of_lt, hf]

theorem rfHdr_dec_enc {h : RfHdr} (hf : h.Fits) : RfHdr.dec h.enc = h := by
  simp only [RfHdr.Fits, Nat.reducePow] at hf
  simp [RfHdr.dec, RfHdr.enc, bitOf_eq_fld, fld_withCrc, fld_pack_head, fld_pack_tail, b2n_mod_two_beq_one, Nat.mod_eq_of_lt, hf]

/-- Settles O59: each field is read at its own bits, below the check value, which the encoding puts in the last 4 bytes. -/
theorem packetHeaderRoundTrip : Obligations.PacketHeaderRoundTrip :=
  ⟨fun _ hf => ⟨cHdr_dec_enc hf, crcOk_withCrc (by decide) _⟩, fun _ hf => ⟨rHdr_dec_enc hf, crcOk_withCrc (by decide) _⟩,
    fun _ hf => ⟨rfHdr_dec_enc hf, crcOk_withCrc (by decide) _⟩⟩

end Sys2Proof.Proofs
end

section
/-! O60: a tally does not depend on the order of arrival. Adding cells is commutative and associative, field by field, so a permutation of
the contributions gives the same accumulators (R234, R235). -/

namespace Sys2Proof.Proofs

open Sys2Proof Sys2Proof.Machine

theorem cell_add_comm (c d : Cell) : c.add d = d.add c := by
  simp only [Cell.add, Int.add_comm, Bool.or_comm]

theorem cell_add_assoc (c d e : Cell) : (c.add d).add e = c.add (d.add e) := by
  simp only [Cell.add, Int.add_assoc, Bool.or_assoc]

/-- Two contributions give the same accumulators in either order. -/
theorem cell_add_right_comm (c d e : Cell) : (c.add d).add e = (c.add e).add d := by
  rw [cell_add_assoc, cell_add_comm d e, ← cell_add_assoc]

theorem foldl_cell_add_perm {cs ds : List Cell} (h : cs.Perm ds) (c : Cell) : cs.foldl Cell.add c = ds.foldl Cell.add c :=
  h.foldl_eq' (fun d _ e _ c => cell_add_right_comm c d e) c

/-- Settles O60: the accumulators agree, and an element is finished from them alone. -/
theorem tallyOrder : Obligations.TallyOrder := fun _ _ e f h =>
  ⟨congrArg (fun c => c.finish e f) (foldl_cell_add_perm h {}), foldl_cell_add_perm h {}⟩

end Sys2Proof.Proofs
end

section
/-! O18: the collective packets. Those of the two channels go to one rule, past the check of their header and the gate of their job. -/

namespace Sys2Proof.Proofs

open Sys2Proof Sys2Proof.Machine Sys2Proof.Laws

/-- A collective packet whose header is whole, of the active job, reaches its collective (R229). -/
theorem collFrame_active {s : State} {l : Nat} {f : Frame} (hcrc : crcOk 32 (f.pkt % 2 ^ 256) = true)
    (hjob : s.JobTraffic (CHdr.dec f.pkt).job f.src) : s.collFrame l f = s.collIn l f := by
  unfold State.collFrame
  rw [hcrc]
  exact jobPkt_active hjob

/-- With power, a whole collective packet of the active job that its port takes, of the kind of the command's row, reaches its collective. -/
theorem arrival_collFrame {s : State} {l vc n : Nat} {f : Frame} (hp : s.Powered) (hcrc : crcOk 32 (f.pkt % 2 ^ 256) = true)
    (hjob : (s.onFrame l f).JobTraffic (CHdr.dec f.pkt).job f.src) (ht : s.Takes l vc f) (hkind : pktKind f = n) :
    s.arrival (s.frameIn l vc f (pktKind f == n) (fun s => s.collFrame l f)) =
      .next (s.after (fun _ => ((s.onFrame l f).collIn l f).rxReturn l f)) :=
  arrival_frameIn hp ht (beq_iff_eq.mpr hkind) (collFrame_active hcrc hjob)

/-- Settles O18: each packet is taken as the one of its row, contributions, results and blocks on VC 3, the others on VC 4. -/
theorem collectiveFramesAct : Obligations.CollectiveFramesAct := by
  intro s l f hp hcrc hjob
  refine ⟨fun ht => ?data, fun ht => ?control⟩
  case data | control => and_intros <;> exact arrival_collFrame hp hcrc hjob ht

end Sys2Proof.Proofs
end

section
/-! O19 and O20: remote requests and remote answers. What a whole packet of the active job does past its checks is said once for every kind
of request, and once for every kind of answer. -/

namespace Sys2Proof.Proofs

open Sys2Proof Sys2Proof.Machine Sys2Proof.Laws

/-- A frame that its port takes came on the channel of the row (R451). -/
theorem takes_vc {s : State} {l vc : Nat} {f : Frame} (h : s.Takes l vc f) : f.vc = vc := by
  obtain ⟨-, -, -, hok⟩ := h
  simp only [State.frameOk, Bool.and_eq_true, beq_iff_eq] at hok
  tauto

/-- A whole request packet of the active job puts the items named into the intake and takes those that may go (R247, R268). -/
theorem rmtRequest_active {s : State} {l kind : Nat} {f : Frame} (hok : rmtReqOk f kind = true) (hnz : (RHdr.dec f.pkt).job ≠ 0)
    (hjob : s.JobTraffic (RHdr.dec f.pkt).job (RHdr.dec f.pkt).src) (ns : List Nat) :
    s.rmtRequest l f kind ns =
      let s1 := foldS ns (fun n s => s.rmtHold l f n true) s
      s1.rmtRetry l (2 * (s1.lquay l).rmt.held.length) := by
  unfold State.rmtRequest
  simp only [hok, beq_false_of_ne hnz, jobPkt_active hjob]
  rfl

/-- With power, an atomic request packet that its port takes is the one of the row of its item's OP (R264). -/
theorem atomicItem_takes {s t : State} {l n op : Nat} {f : Frame} (hp : s.Powered) (ht : s.Takes l 5 f) (hkind : pktKind f = 3)
    (hn : n < (RHdr.dec f.pkt).nitem) (hop : fld (reqItem f.pkt 3 n) 43 40 = op) (hact : (s.onFrame l f).rmtRequest l f 3 [n] = t) :
    s.atomicItem l f n op = .next (s.after (fun _ => t.rxReturn l f)) :=
  arrival_frameIn hp ht (by simp [hkind, hn, hop]) hact

/-- Settles O19: each packet is taken as the one of its row, with every item of it, or the one the command names. -/
theorem remoteFramesAct : Obligations.RemoteFramesAct := by
  intro s l n f hp h hnz hjob each ht
  have hact {kind : Nat} (hok : rmtReqOk f kind = true) (ns : List Nat) := rmtRequest_active (l := l) hok hnz hjob ns
  refine ⟨fun hkind hok => ?read, fun hkind hok => ?write, fun hkind hok hn => ?atomic⟩
  case read | write => exact arrival_frameIn hp ht (beq_iff_eq.mpr hkind) (hact hok _)
  case atomic => and_intros <;> exact fun hop => atomicItem_takes hp ht hkind hn hop (hact hok [n])

/-- A remote answer of the active job completes the items it names, as answers to requests of its kind (R250, R251). -/
theorem answerFrame_active {s : State} {l : Nat} {f : Frame} (hnz : (RHdr.dec f.pkt).job ≠ 0)
    (hjob : s.JobTraffic (RHdr.dec f.pkt).job f.src) : s.answerFrame l f = s.rmtReply l ((RHdr.dec f.pkt).kind - 8) f := by
  unfold State.answerFrame
  simp only [beq_false_of_ne hnz, jobPkt_active hjob]
  rfl

/-- With power, a remote answer of the active job that its port takes, of the kind of the command's row, completes its items. -/
theorem arrival_answerFrame {s : State} {l n : Nat} {f : Frame} (hp : s.Powered) (ht : s.Takes l 6 f) (hnz : (RHdr.dec f.pkt).job ≠ 0)
    (hjob : (s.onFrame l f).JobTraffic (RHdr.dec f.pkt).job f.src) (hkind : pktKind f = n) :
    s.arrival (s.frameIn l 6 f (pktKind f == n) (fun s => s.answerFrame l f)) =
      .next (s.after (fun _ => ((s.onFrame l f).rmtReply l (n - 8) f).rxReturn l f)) := by
  have hk : (RHdr.dec f.pkt).kind = n := by rw [← hkind, pktKind, takes_vc ht]; rfl
  exact arrival_frameIn hp ht (beq_iff_eq.mpr hkind) (hk ▸ answerFrame_active hnz hjob)

/-- Settles O20: each answer is taken as the one of its row, whose kind is the request's with 8 added. -/
theorem remoteAnswersAct : Obligations.RemoteAnswersAct := by
  intro s l f hp ht hnz hjob
  and_intros <;> exact arrival_answerFrame hp ht hnz hjob

end Sys2Proof.Proofs
end

section
/-! O54: the integer atomics (R264). Their place ends within the line and is a field of it, so the new line differs from the old in that field
alone; what the field takes is one branch of the model's table of operations for each OP. -/

namespace Sys2Proof.Proofs

open Sys2Proof Sys2Proof.Machine

/-! ## A field put into a number -/

/-- A number with a field replaced: what lies below the field, the field, what lies above it. -/
theorem setFld_eq {hi lo w : Nat} (h : hi + 1 = lo + w) (v x : Nat) :
    setFld v hi lo x = v % 2 ^ lo + (x % 2 ^ w + (v >>> (lo + w)) <<< w) <<< lo := by
  rw [setFld, h, Nat.add_sub_cancel_left, Nat.add_comm lo w, Nat.shiftLeft_add, Nat.add_assoc]
  simp only [Nat.shiftLeft_eq, Nat.add_mul]

section
variable {hi lo : Nat} (h : lo ≤ hi + 1) (v x : Nat)
include h

theorem setFld_shiftRight : setFld v hi lo x >>> (hi + 1) = v >>> (hi + 1) := by
  obtain ⟨w, hw⟩ := Nat.exists_eq_add_of_le h
  rw [setFld_eq hw, hw, add_shiftLeft_shiftRight (Nat.mod_lt _ (Nat.two_pow_pos _))]
  exact add_shiftLeft_shiftRight (Nat.mod_lt _ (Nat.two_pow_pos _)) _ 0

theorem fld_setFld_same : fld (setFld v hi lo x) hi lo = x % 2 ^ (hi + 1 - lo) := by
  obtain ⟨w, hw⟩ := Nat.exists_eq_add_of_le h
  have hshift : setFld v hi lo x >>> lo = x % 2 ^ w + (v >>> (lo + w)) <<< w := by
    rw [setFld_eq hw]
    exact add_shiftLeft_shiftRight (Nat.mod_lt _ (Nat.two_pow_pos _)) _ 0
  rw [fld, hshift, hw, Nat.add_sub_cancel_left, add_shiftLeft_mod (Nat.mod_lt _ (Nat.two_pow_pos _))]

theorem fld_setFld_below {hi' : Nat} (lo' : Nat) (hb : hi' < lo) : fld (setFld v hi lo x) hi' lo' = fld v hi' lo' := by
  obtain ⟨w, hw⟩ := Nat.exists_eq_add_of_le h
  rw [← fld_mod_two_pow _ lo' hb, setFld_eq hw, add_shiftLeft_mod (Nat.mod_lt _ (Nat.two_pow_pos _)), fld_mod_two_pow v lo' hb]

theorem fld_setFld_above {lo' : Nat} (hi' : Nat) (ha : hi < lo') : fld (setFld v hi lo x) hi' lo' = fld v hi' lo' := by
  obtain ⟨k, rfl⟩ := Nat.exists_eq_add_of_le (Nat.succ_le_of_lt ha)
  rw [fld, fld, Nat.shiftRight_add, Nat.shiftRight_add, setFld_shiftRight h]

end

/-! ## Two's complement -/

theorem unsigned_signed {w v : Nat} (h : v < 2 ^ w) : unsigned w (signed w v) = v := by
  have hv : ((v : Int) % (2 ^ w : Int)).toNat = v := by
    rw [Int.emod_eq_of_lt (Int.natCast_nonneg v) (by exact_mod_cast h), Int.toNat_natCast]
  unfold unsigned signed
  rw [Nat.mod_eq_of_lt h]
  split
  · exact hv
  · rwa [Int.sub_emod_right]

/-! ## What the place takes -/

/-- The OPs of R264; an exchange is of TYPE 4. -/
theorem atomOk_cases {op type : Nat} {noret : Bool} (h : atomOk op type noret = true) :
    op = 1 ∨ op = 2 ∨ op = 3 ∨ (op = 4 ∧ type = 4) := by
  simp only [atomOk, Bool.or_eq_true, Bool.and_eq_true, beq_iff_eq] at h
  tauto

theorem atomNew_add {type : Nat} (htype : type ≠ 5) (m operand compare : Nat) :
    atomNew 1 type m operand compare =
      (m + operand % 2 ^ (8 * atomBytes type)) % 2 ^ (8 * atomBytes type) := by
  simp [atomNew, htype]

theorem atomNew_exchange (m operand compare : Nat) :
    atomNew 4 4 m operand compare = if m = compare % 2 ^ 64 then operand % 2 ^ 64 else m := by
  simp [atomNew, atomBytes]

section
variable {type m : Nat} (htype : type ≠ 5) (hm : m < 2 ^ (8 * atomBytes type)) (operand compare : Nat)
include htype hm

/-- The place keeps the lower of the two values as numbers of the TYPE: encoding what was decoded gives the value back. -/
theorem atomNew_min :
    let w := 8 * atomBytes type
    let x := operand % 2 ^ w
    atomNew 2 type m operand compare =
      if type = 1 ∨ type = 3 then unsigned w (min (signed w m) (signed w x)) else min m x := by
  have hx : operand % 2 ^ (8 * atomBytes type) < 2 ^ (8 * atomBytes type) := Nat.mod_lt _ (Nat.two_pow_pos _)
  simp only [atomNew, beq_false_of_ne htype, min_def, apply_ite (unsigned _), unsigned_signed hm, unsigned_signed hx]
  simp

/-- The higher of the two: the model keeps what is in the place unless it is at most the operand. -/
theorem atomNew_max :
    let w := 8 * atomBytes type
    let x := operand % 2 ^ w
    atomNew 3 type m operand compare =
      if type = 1 ∨ type = 3 then unsigned w (max (signed w m) (signed w x)) else max m x := by
  have hx : operand % 2 ^ (8 * atomBytes type) < 2 ^ (8 * atomBytes type) := Nat.mod_lt _ (Nat.two_pow_pos _)
  simp only [atomNew, beq_false_of_ne htype, max_comm m, max_comm (signed _ m), max_def_lt, apply_ite (unsigned _),
    unsigned_signed hm, unsigned_signed hx]
  simp

/-- What is stored fits the place: a sum cut to its width, or one of the two values. -/
theorem atomNew_lt (op : Nat) : atomNew op type m operand compare < 2 ^ (8 * atomBytes type) := by
  have hmod (v : Nat) : v % 2 ^ (8 * atomBytes type) < 2 ^ (8 * atomBytes type) := Nat.mod_lt _ (Nat.two_pow_pos _)
  simp only [atomNew, beq_false_of_ne htype, Bool.false_eq_true, if_false]
  split
  · exact hmod _
  all_goals split_ifs <;> simp only [hm, hmod]

end

/-! ## The place in its line -/

/-- A place at a multiple of its own size ends within its line. -/
theorem atomPlace_le {type addr : Nat} (h : addr % atomBytes type = 0) : addr % 128 + atomBytes type ≤ 128 := by
  have hn : atomBytes type = 8 ∨ atomBytes type = 4 := ite_eq_or_eq _ _ _
  rcases hn with hn | hn <;> rw [hn] at h ⊢ <;> omega

/-- The new line has the stored value for the field that is the place. -/
theorem fld_atomLine {hi : Nat} (op type operand compare addr : Nat) (old : Line) (lo : Nat) (h : hi < 1024) :
    let b := addr % 128
    let n := atomBytes type
    fld (atomLine op type operand compare addr old).1.toNat hi lo =
      fld (setFld old.toNat (8 * (b + n) - 1) (8 * b) (atomNew op type (byt old.toNat (b + n - 1) b) operand compare)) hi lo := by
  simp only [atomLine, BitVec.toNat_ofNat, fld_mod_two_pow _ lo h]

/-- Settles O54: OLD is read at the place, below and above the place the line is as it was, and the place holds what its OP stores. -/
theorem atomicsCompute : Obligations.AtomicsCompute := by
  intro op type operand compare addr noret old hok htype haddr n b r x
  have hle : b + n ≤ 128 := atomPlace_le haddr
  have hn : 0 < n := by simp only [n, atomBytes]; split <;> decide
  have hfield : 8 * b ≤ 8 * (b + n) - 1 + 1 := by omega
  have hwidth : 8 * (b + n - 1) + 7 + 1 - 8 * b = 8 * n := by omega
  have hm : r.2 < 2 ^ (8 * n) := hwidth ▸ fld_lt _ _ _
  refine ⟨rfl, fun i hi hout => ?frame, ?place⟩
  case frame =>
    rw [byt, fld_atomLine _ _ _ _ _ _ _ (by omega)]
    rcases hout with hbelow | habove
    · exact fld_setFld_below hfield _ _ _ (by omega)
    · exact fld_setFld_above hfield _ _ _ (by omega)
  case place =>
    have hplace : byt r.1.toNat (b + n - 1) b = atomNew op type r.2 operand compare := by
      have hend : 8 * (b + n) - 1 = 8 * (b + n - 1) + 7 := by omega
      rw [byt, fld_atomLine _ _ _ _ _ _ _ (by omega), hend, fld_setFld_same (by omega), hwidth]
      exact Nat.mod_eq_of_lt (atomNew_lt htype hm _ _ _)
    rw [hplace]
    rcases atomOk_cases hok with rfl | rfl | rfl | ⟨rfl, rfl⟩
    · exact atomNew_add htype _ _ _
    · exact atomNew_min htype hm operand compare
    · exact atomNew_max htype hm operand compare
    · exact atomNew_exchange _ _ _

end Sys2Proof.Proofs
end

section
/-! O21: refresh lighters and the locker's answers. A refresh lighter is refused if the device that sent it is fenced. The statement says so of
the state the lighter finds, and the model looks at the state after its arrival: an Idle harbour has then gone back to Run, and a stop that
waited for Run has taken place. A stop ends the job or keeps the fenced set, so where the job is active the two states agree. -/

namespace Sys2Proof.Proofs

open Sys2Proof Sys2Proof.Machine Sys2Proof.Laws

/-! ## The job of a harbour that an arrival finds in Idle (R423) -/

theorem job_eq_of_evOnly {s t : State} (h : EvOnly s t) : t.job = s.job := by
  obtain ⟨_, _, _, _, _, _, rfl⟩ := h
  rfl

@[simp] theorem evH_job (s : State) (e : Evt) (args : List (Nat × Nat)) : (s.evH e args).job = s.job := job_eq_of_evOnly (evOnly_evH s e args)

@[simp] theorem ringCast_job (s : State) (l cls : Nat) (m : RingMsg) : (s.ringCast l cls m).job = s.job :=
  job_eq_of_evOnly (evOnly_ringCast s l cls m)

@[simp] theorem peerPump_job (s : State) (l : Nat) : (s.peerPump l).job = s.job := by
  unfold State.peerPump
  dsimp only
  split
  · rfl
  · rw [modLquay_job, modPort_job]

/-- A harbour that becomes quiescent keeps its fenced set. -/
@[simp] theorem goQuiet_fenced (s : State) (cause : Nat) : (s.goQuiet cause).job.fenced = s.job.fenced := by
  unfold State.goQuiet
  split
  · rfl
  · refine foldS_keeps (P := fun t : State => t.job.fenced = s.job.fenced) (fun l t h => ?_) _ ?_
    · rw [peerPump_job, h]
    · rw [evH_job]

@[simp] theorem refrDiscard_job (s : State) : s.refrDiscard.job = s.job := by
  unfold State.refrDiscard
  refine foldS_keeps (P := fun t : State => t.job = s.job) (fun l t h => ?_) _ rfl
  rw [modPort_job, h]

/-- A job that is ended is draining, no longer on (R173). -/
@[simp] theorem endJob_jobOn (s : State) : s.endJob.jobOn = false := by
  generalize ht : s.endJob = t
  unfold State.endJob at ht
  extract_lets at ht
  rw [← ht, State.jobOn, refrDiscard_job]
  rfl

/-- A stop that leaves a job on keeps the fenced set: it makes the job quiescent, and does not end it (R464). -/
theorem stopNow_fenced {s : State} (hon : s.stopNow.jobOn = true) : s.stopNow.job.fenced = s.job.fenced := by
  unfold State.stopNow at hon ⊢
  split at hon
  · split
    · rfl
    · exact goQuiet_fenced s 2
  · rw [endJob_jobOn] at hon
    cases hon
  · rfl

/-- Run entered from another state than Hold keeps the fenced set, if the stop that may have waited for Run leaves the job on (R423, R465). -/
theorem setPwr_run_fenced {s : State} (hstate : s.pwr.state ≠ .hold) (hon : (s.setPwr .run).jobOn = true) :
    (s.setPwr .run).job.fenced = s.job.fenced := by
  generalize ht : s.setPwr .run = t at hon ⊢
  unfold State.setPwr at ht
  extract_lets r s1 pwr s2 tide s3 s4 at ht
  have hnotHold : s3 = s2 := if_neg (by decide)
  have hnoFlush : s4 = s3 := if_neg (by rw [beq_false_of_ne hstate]; decide)
  have hlog : s1.job = s.job := evH_job r.2 _ _
  have hcast : s2.job = s1.job := ringCast_job _ _ _ _
  have hjob : s4.job = s.job := by rw [hnoFlush, hnotHold, hcast, hlog]
  split at ht
  · rw [← ht] at hon ⊢
    exact (stopNow_fenced hon).trans (congrArg Job.fenced hjob)
  · rw [← ht, hjob]

/-- What Idle has parked is quay state. -/
theorem pwrUnpark_keeps (s : State) : s.pwrUnpark.job = s.job ∧ s.pwrUnpark.pwr = s.pwr := by
  unfold State.pwrUnpark
  refine foldS_keeps (P := fun t : State => t.job = s.job ∧ t.pwr = s.pwr) (fun p t h => ?_) _ ⟨rfl, rfl⟩
  rwa [modQuay_job, modQuay_pwr]

/-- The return from Idle to Run keeps the fenced set, if the job is on after it. -/
theorem wake_fenced {s : State} (hon : s.wake.jobOn = true) : s.wake.job.fenced = s.job.fenced := by
  unfold State.wake at hon ⊢
  split at hon
  · next hidle =>
    obtain ⟨hjob, hpwr⟩ := pwrUnpark_keeps s
    have hne : s.pwrUnpark.pwr.state ≠ .hold := by rw [hpwr, beq_iff_eq.mp hidle]; decide
    rw [if_pos hidle, setPwr_run_fenced hne hon, hjob]
  · next hidle => rw [if_neg hidle]

theorem jobOn_of_jobGate {s : State} {tag : Nat} (h : s.jobGate tag = .active) : s.jobOn = true := by
  unfold State.jobGate at h
  split_ifs at h with _ hon
  exact (Bool.and_eq_true_iff.mp hon).1

/-- Where a frame meets its job active, a device is fenced as it was when the frame arrived. -/
theorem onFrame_isFenced {s : State} {l job src : Nat} {f : Frame} (hjob : (s.onFrame l f).JobTraffic job src) (d : Nat) :
    (s.onFrame l f).isFenced d = s.isFenced d := by
  obtain ⟨hgate, -, -⟩ := hjob
  have hkeep : (s.onFrame l f).job.fenced = (s.rxTake l f).job.fenced := wake_fenced (jobOn_of_jobGate hgate)
  rw [State.isFenced, hkeep, State.rxTake, modPort_job, State.isFenced]

/-! ## Refresh lighters -/

/-- A sound refresh lighter of the active job, from a device that is not fenced, is staged or answered by its kind (R283, R284). -/
theorem refreshFrame_active {s : State} {l : Nat} {f : Frame} (hok : refrOk f (RfHdr.dec f.pkt).rkind = true)
    (hfree : s.isFenced f.src = false) (hjob : s.JobTraffic (RfHdr.dec f.pkt).job (RfHdr.dec f.pkt).src) :
    ((RfHdr.dec f.pkt).rkind = 1 → s.refreshFrame l f = s.refrIn l f) ∧
      ((RfHdr.dec f.pkt).rkind = 2 → s.refreshFrame l f = s.refrIn l f) ∧
      ((RfHdr.dec f.pkt).rkind = 3 → s.refreshFrame l f = s.refrAsked l f) := by
  have hwhole : ¬ (!refrOk f (RfHdr.dec f.pkt).rkind) = true := by rw [hok]; decide
  have hsender : ¬ s.isFenced f.src = true := by rw [hfree]; decide
  unfold State.refreshFrame
  rw [if_neg hwhole, if_neg hsender, jobPkt_active hjob]
  and_intros <;> exact fun hkind => by simp only [hkind]

/-- With power, a refresh lighter that its port takes, of the kind of the command's row, does what that kind gives. -/
theorem arrival_refreshFrame {s t : State} {l n : Nat} {f : Frame} (hp : s.Powered) (ht : s.Takes l 1 f) (hpkt : pktKind f = 3)
    (hact : (RfHdr.dec f.pkt).rkind = n → (s.onFrame l f).refreshFrame l f = t) (hkind : (RfHdr.dec f.pkt).rkind = n) :
    s.arrival (s.frameIn l 1 f (pktKind f == 3 && (RfHdr.dec f.pkt).rkind == n) (fun s => s.refreshFrame l f)) =
      .next (s.after (fun _ => t.rxReturn l f)) :=
  arrival_frameIn hp ht (by simp [hpkt, hkind]) (hact hkind)

/-! ## The locker's answers -/

/-- With power, an answer of the locker that its port takes, of the kind of the command's row, reaches its request, a write's if it is of
kind 9 (R400). -/
theorem arrival_lockerFrame {s : State} {l n : Nat} {f : Frame} (hp : s.Powered) (ht : s.Takes l 7 f) (hkind : pktKind f = n) :
    s.arrival (s.frameIn l 7 f (pktKind f == n) (fun s => s.lockerFrame l f)) =
      .next (s.after (fun _ => ((s.onFrame l f).lockAnswer l f (n == 9)).rxReturn l f)) := by
  have hbyte : byt f.pkt 0 0 = n := by rw [← hkind, pktKind, takes_vc ht]; rfl
  exact arrival_frameIn hp ht (beq_iff_eq.mpr hkind) (by rw [State.lockerFrame, hbyte])

/-- Settles O21: each packet is taken as the one of its row; a refresh lighter's sender is as little fenced when it is looked at as when it
came. -/
theorem refreshAndLockerFramesAct : Obligations.RefreshAndLockerFramesAct := by
  intro s l f hp
  refine ⟨fun ht hpkt hok hfree hjob => ?refresh, fun ht => ?locker⟩
  case refresh =>
    obtain ⟨hdata, hend, hask⟩ := refreshFrame_active (l := l) hok ((onFrame_isFenced hjob _).trans hfree) hjob
    exact ⟨arrival_refreshFrame hp ht hpkt hdata, arrival_refreshFrame hp ht hpkt hend, arrival_refreshFrame hp ht hpkt hask⟩
  case locker => exact ⟨arrival_lockerFrame hp ht, arrival_lockerFrame hp ht⟩

end Sys2Proof.Proofs
end

section
/-! O49: the checks of an access through a berth's handle. What a handle must meet is said once for the three uses a unit makes of it. Past the
checks, an access looks for a line of the memory tier that is not sound, and then reads: a read of the channel port changes a quay's commands
only, so it leaves the staging SRAM as quiet as it was. -/

namespace Sys2Proof.Proofs

open Sys2Proof Sys2Proof.Machine Sys2Proof.Laws

/-! ## The checks of a handle (R312) -/

/-- The bytes a use reaches lie in a berth of the pool, and begin and end at multiples of 16 B. -/
def InBerth (pool : Nat) : BerthOp → Prop
  | .access off len => off + len ≤ berthSize pool ∧ off % 16 = 0 ∧ len % 16 = 0
  | _ => True

/-- COUNT of a berth allows the use (R311). -/
def CountAllows (x : Berth) : BerthOp → Prop
  | .access .. => True
  | .share k => x.count + k ≤ 255
  | .release => 0 < x.count

/-- `x` is the live berth that handle `h` names, of its GEN and owned by class `o`. -/
def NamesBerth (b : Pools) (o : Owner) (h : Nat) (x : Berth) : Prop :=
  b.live.find? (fun x => x.pool == fld h 2 0 && x.mem == bitOf h 3 && x.idx == fld h 23 4) = some x ∧ x.gen = fld h 31 24 ∧ x.owner = o

/-- A check that is not failed leaves the answer to the checks after it. -/
theorem check_eq_none_iff {p : Prop} [Decidable p] {c : Nat} {rest : Option Nat} :
    (if p then some c else rest) = none ↔ ¬ p ∧ rest = none := by
  split_ifs with h <;> simp [h]

/-- No check of R312 fails exactly when all of them are met. -/
theorem refusal_eq_none_iff (b : Pools) (n : Nat → Bool → Nat) (o : Owner) (h : Nat) (op : BerthOp) :
    b.refusal n o h op = none ↔
      fld h 2 0 ≤ 5 ∧ fld h 23 4 < n (fld h 2 0) (bitOf h 3) ∧ InBerth (fld h 2 0) op ∧ ∃ x, NamesBerth b o h x ∧ CountAllows x op := by
  simp only [Pools.refusal, check_eq_none_iff, NamesBerth]
  cases b.live.find? (fun x => x.pool == fld h 2 0 && x.mem == bitOf h 3 && x.idx == fld h 23 4) with
  | none => simp
  | some x =>
    simp only [check_eq_none_iff]
    cases op with
    | access off len => simp [InBerth, CountAllows, and_assoc]
    | share k => simp [InBerth, CountAllows, and_assoc]
    | release => simp [InBerth, CountAllows, Nat.pos_iff_ne_zero, and_assoc]

/-- No handle of a piece of work fails a check exactly when each of them passes. -/
theorem berthBad_eq_none_iff (s : State) (l : Nat) (o : Owner) (work : Nat) (op : BerthOp) :
    s.berthBad l o work op = none ↔ ∀ h, (o, work, h) ∈ (s.lquay l).pools.handles →
      (s.lquay l).pools.refusal (fun p m => s.lpar l (if m then .berthMem p else .berthSram p)) o h op = none := by
  simp only [State.berthBad, List.findSome?_eq_none_iff, List.mem_filter, Option.map_eq_none_iff, Bool.and_eq_true, beq_iff_eq]
  exact ⟨fun hall h hmem => hall _ ⟨hmem, rfl, rfl⟩, fun hall ⟨_, _, h⟩ ⟨hmem, ho, hwork⟩ => hall h (ho ▸ hwork ▸ hmem)⟩

/-! ## Lines of the memory tier (R328) -/

/-- Whether line `i` of a berth of the memory tier cannot be read, or fails the check value kept after the berth's bytes. -/
def lineRot (s : State) (l : Nat) (x : Berth) (i : Nat) : Bool :=
  !s.lineOk l (s.berthAddr l x.pool x.idx + 128 * i) ||
    lineCrc (s.readLine l (s.berthAddr l x.pool x.idx + 128 * i)) != s.readB l (s.berthAddr l x.pool x.idx + berthSize x.pool + 4 * i) 4

/-- The berths of a piece of work. -/
def workBerths (b : Pools) (o : Owner) (work : Nat) : List Berth := b.live.filter (fun x => x.owner == o && x.work == work)

/-- The first line of the work's berths in the memory tier that is not sound, with the check value kept for it. -/
def berthRot (s : State) (l : Nat) (o : Owner) (work : Nat) : Option (Nat × Nat) :=
  ((workBerths (s.lquay l).pools o work).filter (·.mem)).findSome? (fun x =>
    ((List.range x.crcs.length).find? (lineRot s l x)).map (fun i =>
      (s.berthAddr l x.pool x.idx + 128 * i, s.readB l (s.berthAddr l x.pool x.idx + berthSize x.pool + 4 * i) 4)))

theorem lineRot_eq_false_iff (s : State) (l : Nat) (x : Berth) (i : Nat) :
    lineRot s l x i = false ↔ s.lineOk l (s.berthAddr l x.pool x.idx + 128 * i) = true ∧
      lineCrc (s.readLine l (s.berthAddr l x.pool x.idx + 128 * i)) = s.readB l (s.berthAddr l x.pool x.idx + berthSize x.pool + 4 * i) 4 := by
  simp [lineRot]

/-- No line is found exactly when every line the work holds in the memory tier is readable and keeps its check value. -/
theorem berthRot_eq_none_iff (s : State) (l : Nat) (o : Owner) (work : Nat) :
    berthRot s l o work = none ↔
      ∀ x ∈ (s.lquay l).pools.live, x.owner = o → x.work = work → x.mem = true → ∀ i < x.crcs.length,
        s.lineOk l (s.berthAddr l x.pool x.idx + 128 * i) = true ∧
        lineCrc (s.readLine l (s.berthAddr l x.pool x.idx + 128 * i)) = s.readB l (s.berthAddr l x.pool x.idx + berthSize x.pool + 4 * i) 4 := by
  simp only [← lineRot_eq_false_iff, berthRot, workBerths, List.findSome?_eq_none_iff, List.mem_filter, Option.map_eq_none_iff,
    List.find?_eq_none, List.mem_range, Bool.and_eq_true, beq_iff_eq, and_imp, Bool.not_eq_true]

/-! ## The reads of an access (R307, R336) -/

/-- The state after the reads of the lines of the work's memory-tier berths. -/
def berthLineReads (s : State) (l : Nat) (o : Owner) (work : Nat) : State :=
  foldS ((workBerths (s.lquay l).pools o work).filter (·.mem)) (fun x s =>
    foldS (List.range x.crcs.length) (fun i s => s.issueRead l (s.berthAddr l x.pool x.idx + 128 * i) .own) s) s

/-- A read of an SRAM berth after others; the flag stays while no word comes with poison. -/
def berthSramRead (l : Nat) (a : State × Bool) (x : Berth) : State × Bool :=
  ((a.1.sramRead l 0 x.handle).1, a.2 && !(a.1.sramRead l 0 x.handle).2)

/-- No word of a berth waits with a flipped bit in the staging SRAM of position `l`, and its valid array has no parity error (R336, R337). -/
def SramQuiet (l : Nat) (s : State) : Prop := (s.lquay l).glitch.contains 8 = false ∧ ∀ f ∈ (s.lquay l).flips, f.1 ≠ 0

/-- A value that a table's search by `P` does not tell from the one at the key found leaves the search at that key. -/
theorem find?_set_key {κ α : Type} [DecidableEq κ] {P : α → Bool} {d v : α} {k : κ} {t : Tbl κ α} (hv : P v = P (t.get d k))
    (hk : (t.find? (fun e => P e.2)).map (·.1) = some k) : ((t.set k v).find? (fun e => P e.2)).map (·.1) = some k := by
  induction t with
  | nil => simp at hk
  | cons e t ih =>
    obtain ⟨k', v'⟩ := e
    by_cases hkey : k' = k
    · subst hkey
      rw [Tbl.get, if_pos rfl] at hv
      cases hP : P v' <;> simp_all [Tbl.set]
    · rw [Tbl.get, if_neg hkey] at hv
      rw [Tbl.set, if_neg hkey, List.find?_cons]
      cases hP : P v' with
      | true => simp [hP, hkey] at hk
      | false => exact ih hv (by simpa [hP] using hk)

/-- A quay that is changed but for its service and its logical index holds the position it held. -/
theorem modQuay_phys {s : State} {l p : Nat} {f : Quay → Quay} (hp : s.phys l = some p)
    (hin : (f (s.quay p)).inService = (s.quay p).inService) (hlq : (f (s.quay p)).lq = (s.quay p).lq) : (s.modQuay p f).phys l = some p :=
  find?_set_key (P := fun q : Quay => q.inService && q.lq == some l) (d := {}) (congrArg₂ (fun i q => i && q == some l) hin hlq) hp

/-- A read that is issued leaves the staging SRAM of its position as it was. -/
theorem issueRead_sramQuiet {l : Nat} {s : State} (hs : SramQuiet l s) (addr : Nat) (u : McUse) : SramQuiet l (s.issueRead l addr u) := by
  unfold State.issueRead
  cases hp : s.phys l with
  | none => rwa [State.modLquay, hp]
  | some p =>
    rw [modLquay_eq hp]
    rw [SramQuiet, State.lquay, hp] at hs
    rw [SramQuiet, State.lquay, modQuay_phys hp rfl rfl, Option.getD_some, modQuay_self]
    exact hs

theorem issueRead_mem (s : State) (l addr : Nat) (u : McUse) : (s.issueRead l addr u).mem = s.mem := modLquay_mem _ _ _

theorem berthLineReads_keeps {s : State} {l : Nat} (hs : SramQuiet l s) (o : Owner) (work : Nat) :
    SramQuiet l (berthLineReads s l o work) ∧ (berthLineReads s l o work).mem = s.mem := by
  refine foldS_keeps (P := fun t => SramQuiet l t ∧ t.mem = s.mem) (fun x t ht => ?_) _ ⟨hs, rfl⟩
  refine foldS_keeps (P := fun t => SramQuiet l t ∧ t.mem = s.mem) (fun i t ⟨hquiet, hmem⟩ => ?_) _ ht
  exact ⟨issueRead_sramQuiet hquiet _ _, (issueRead_mem _ _ _ _).trans hmem⟩

/-- A word of a berth in a quiet SRAM reads without a mark and changes nothing. -/
theorem sramRead_of_sramQuiet {l : Nat} {s : State} (hs : SramQuiet l s) (key : Nat) : s.sramRead l 0 key = (s, false) := by
  obtain ⟨hvalid, hflips⟩ := hs
  have hnone : (s.lquay l).flips.find? (fun f => f.1 == 0 && f.2.1 == key) = none :=
    List.find?_eq_none.mpr fun f hf => by simp [hflips f hf]
  unfold State.sramRead
  rw [hvalid, hnone]
  rfl

theorem foldl_berthSramRead {l : Nat} {s : State} (hs : SramQuiet l s) (xs : List Berth) :
    xs.foldl (berthSramRead l) (s, true) = (s, true) :=
  List.foldlRecOn xs _ (motive := (· = (s, true))) rfl fun a ha x _ => by
    rw [ha, berthSramRead, sramRead_of_sramQuiet hs]
    rfl

/-! ## Reaching the berths of a piece of work -/

/-- Work with a handle that fails a check does not go on. -/
theorem berthUse_of_berthBad {s : State} {l work : Nat} {o : Owner} {op : BerthOp} (hbad : s.berthBad l o work op ≠ none) :
    (s.berthUse l o work op).2 = false := by
  obtain ⟨c, hc⟩ := Option.ne_none_iff_exists'.mp hbad
  unfold State.berthUse
  rw [hc]

section
variable {s : State} {l work : Nat} {o : Owner}

/-- A share or a release whose handles pass changes nothing. -/
theorem berthUse_of_not_access {op : BerthOp} (hgood : s.berthBad l o work op = none) (hop : ¬ ∃ off len, op = .access off len) :
    s.berthUse l o work op = (s, true) := by
  unfold State.berthUse
  rw [hgood]
  cases op with
  | access off len => exact absurd ⟨off, len, rfl⟩ hop
  | share k => rfl
  | release => rfl

variable {off len : Nat} (hgood : s.berthBad l o work (.access off len) = none)
include hgood

/-- An access whose checks pass is its reads, unless a line of the memory tier is not sound (log 110). -/
theorem berthUse_access :
    s.berthUse l o work (.access off len) =
      (berthRot s l o work).elim
        (((workBerths (s.lquay l).pools o work).filter (fun x => !x.mem)).foldl (berthSramRead l) (berthLineReads s l o work, true))
        (fun a => (s.sigL l { cls := 0x01, unit := 0xB, addr := a.1, expected := a.2, observed := lineCrc (s.readLine l a.1) }, false)) := by
  simp only [State.berthUse, hgood, Bool.not_true, Bool.false_eq_true, if_false]
  unfold berthRot lineRot berthLineReads workBerths
  split
  · next hrot => rw [hrot]; rfl
  · next hrot => rw [hrot]; rfl

/-- An access that meets a line of the memory tier that is not sound does not go on. -/
theorem berthUse_of_berthRot (hrot : berthRot s l o work ≠ none) : (s.berthUse l o work (.access off len)).2 = false := by
  obtain ⟨a, ha⟩ := Option.ne_none_iff_exists'.mp hrot
  rw [berthUse_access hgood, ha]
  rfl

/-- An access whose checks pass and whose lines are sound goes on over a quiet SRAM, with memory as it was. -/
theorem berthUse_of_sound (hrot : berthRot s l o work = none) (hs : SramQuiet l s) :
    (s.berthUse l o work (.access off len)).2 = true ∧ (s.berthUse l o work (.access off len)).1.mem = s.mem := by
  obtain ⟨hquiet, hmem⟩ := berthLineReads_keeps hs o work
  rw [berthUse_access hgood, hrot, Option.elim_none, foldl_berthSramRead hquiet]
  exact ⟨rfl, hmem⟩

end

/-- Settles O49: the checks by the one lemma about them, use by use, and what the work does by whether a handle fails, it reads, and its lines
are sound. -/
theorem berthChecks : Obligations.BerthChecks := by
  refine ⟨fun b n o h off len k => ?checks, fun s l work o op => ?work⟩
  case checks =>
    simp only [refusal_eq_none_iff]
    simp [InBerth, CountAllows, NamesBerth, and_assoc]
  case work =>
    intro b ok sound reads
    have hok : s.berthBad l o work op = none ↔ ok := berthBad_eq_none_iff s l o work op
    have hsound : berthRot s l o work = none ↔ sound := berthRot_eq_none_iff s l o work
    rw [← hok, ← hsound]
    refine ⟨berthUse_of_berthBad, berthUse_of_not_access, ?rot, ?goes⟩
    case rot =>
      rintro hgood ⟨off, len, rfl⟩ hrot
      exact berthUse_of_berthRot hgood hrot
    case goes =>
      rintro hgood ⟨off, len, rfl⟩ hrot hvalid hflips
      exact berthUse_of_sound hgood hrot ⟨hvalid, hflips⟩

end Sys2Proof.Proofs
end

section
/-! O33: register accesses of a privileged master, outside Hold, to a block that answers. Reaching the block's rule is said once for each block;
past it, a special command is a write at its own register's offset. -/

namespace Sys2Proof.Proofs

open Sys2Proof Sys2Proof.Machine Sys2Proof.Laws

/-! ## Addresses (R467) -/

/-- A word of a quay block decodes to its quay and its offset. -/
theorem regBlk_qAddr {p off : Nat} (hp : p < 20) (hoff : off < 0x4000) (hword : off % 4 = 0) : regBlk (qAddr p off) = .quay p off := by
  have hblock : fld (qAddr p off) 22 18 = p + 4 := by simp only [fld, qAddr, Nat.shiftRight_eq_div_pow]; omega
  have hoffset : 4 * fld (qAddr p off) 13 2 = off := by simp only [fld, qAddr, Nat.shiftRight_eq_div_pow]; omega
  simp [regBlk, hblock, hoffset, hp]

/-- No read of a quay block sets work going. -/
theorem readWorks_qAddr (p off : Nat) : readWorks (qAddr p off) = false := by
  simp only [readWorks, qAddr, beq_eq_false_iff_ne]
  omega

/-- Of the harbour common block, only the read of H_BATCH_OPEN sets work going. -/
theorem readWorks_harbour {addr off : Nat} (hblk : regBlk addr = .harbour off) (hoff : off ≠ 0x80) : readWorks addr = false := by
  rw [readWorks, beq_eq_false_iff_ne]
  intro hbatch
  have hfields : fld addr 22 18 = 0 ∧ fld addr 17 16 = 0 ∧ fld addr 15 2 = 0x20 := by
    simp only [fld, Nat.shiftRight_eq_div_pow]
    omega
  obtain ⟨hblock, hpad, hindex⟩ := hfields
  simp only [regBlk, hblock, hpad, hindex] at hblk
  exact hoff (RegBlk.harbour.inj hblk).symm

/-! ## From the port to the block's rule (R469 to R471) -/

section
variable {s : State} {acc : Acc} (hpriv : acc.priv = true)
include hpriv

section
variable {addr p off : Nat} (hopen : s.QuayOpen p) (hblk : regBlk addr = .quay p off) (hreg : qReg off = true)
include hopen hblk hreg

theorem regWrite_quay (x : Nat) : s.regWrite addr acc x = s.qWrite p off acc x := by
  obtain ⟨-, hfit, hfailed, -, hhold⟩ := hopen
  simp [State.regWrite, hblk, hfit, hfailed, hhold, hreg, hpriv]

theorem regRead_quay : s.regRead addr acc = (s.qRead p off).1.regAnswer 0 (s.qRead p off).2 := by
  obtain ⟨-, hfit, hfailed, -, hhold⟩ := hopen
  simp [State.regRead, hblk, hfit, hfailed, hhold, hreg, hpriv]

/-- With power, a register write that moves no work on gives what the block's rule gives. -/
theorem aside_regWrite_quay (hp : s.Powered) {x : Nat} {t : State} (hrule : s.qWrite p off acc x = t) :
    s.aside (fun s => s.regWrite addr acc x) = .next (t.keep s) := by
  rw [aside_powered hp, regWrite_quay hpriv hopen hblk hreg, hrule]

end

section
variable {addr off : Nat} (hhold : s.pwr.state ≠ .hold) (hblk : regBlk addr = .harbour off) (hreg : hReg off = true)
include hhold hblk hreg

theorem regWrite_harbour (x : Nat) : s.regWrite addr acc x = s.hWrite off acc x := by
  simp [State.regWrite, hblk, hhold, hreg, hpriv]

theorem regRead_harbour : s.regRead addr acc = (s.hRead off).1.regAnswer 0 (s.hRead off).2 := by
  simp [State.regRead, hblk, hhold, hreg, hpriv]

end

end

theorem exec_registerLoRead (s : State) (addr : Nat) (acc : Acc) :
    exec (.registerLoRead addr acc) s = execRegisterLoRead addr acc s := rfl

theorem exec_registerReadClear (s : State) (addr : Nat) (acc : Acc) :
    exec (.registerReadClear addr acc) s = execRegisterReadClear addr acc s := rfl

/-- With power, both read commands are the read, where it sets no work going. -/
theorem exec_registerReads {s : State} {addr : Nat} {acc : Acc} {t : State} (hp : s.Powered) (hstill : readWorks addr = false)
    (hread : s.regRead addr acc = t) :
    exec (.registerLoRead addr acc) s = .next (t.keep s) ∧ exec (.registerReadClear addr acc) s = .next (t.keep s) := by
  rw [exec_registerLoRead, exec_registerReadClear, execRegisterLoRead, execRegisterReadClear, hstill, if_neg Bool.false_ne_true,
    aside_powered hp, hread]
  exact ⟨rfl, rfl⟩

/-! ## Writes of a quay block -/

section
variable {s : State} {p : Nat} {acc : Acc}

/-- A write of 1 to Q_ERRQ_POP drops the head of the error queue (R367). -/
theorem qWrite_errqPop (hlive : s.spare p = false) :
    s.qWrite p 0x84 acc 1 = (s.modQuay p (fun q => { q with ev := q.ev.pop })).regOk := by
  simp [State.qWrite, hlive, bitOf]

/-- In Maintenance or Open, a write of Q_ECC_FLIP2 whose array number is in range arms the mask (R338). -/
theorem qWrite_eccFlip (hlive : s.spare p = false) (hmaint : s.maint = true) {w : Word} (harray : fld w.toNat 19 16 ≤ 4) :
    s.qWrite p 0x68 acc w.toNat = (s.modQuay p (fun q => { q with flip2 := w &&& 0x800F7FFF#32 })).regOk := by
  simp [State.qWrite, hlive, State.flipWrite, hmaint, harray]

section
variable (hmaint : s.maint = true) (hphase : s.boot.phase = 5 ∨ s.boot.phase = 6)
include hmaint hphase

section
variable (hen : (s.quay p).enabled = false)
include hen

theorem qWrite_paramHi (w : Word) :
    s.qWrite p 0x2C acc w.toNat = (s.modQuay p (fun q => { q with paramHi := some w })).regOk := by
  rcases hphase with hphase | hphase <;> simp [State.qWrite, State.qConfWrite, hmaint, hphase, hen]

/-- The low word takes the high word written before it, or else that of the value in force (R489). -/
theorem qWrite_paramLo (w : Word) {k : Param} (hkey : paramOfKey (s.quay p).paramKey.toNat = some k) :
    s.qWrite p 0x28 acc w.toNat =
      (let v : PVal := { val := w.toNat + ((s.quay p).paramHi.map (·.toNat)).getD (s.parWord p / 2 ^ 32) * 2 ^ 32, src := .quay }
       (s.modQuay p (fun q => { q with paramHi := none, params := q.params.set k v })).regOk) := by
  have hfits : w.toNat % 4294967296 = w.toNat := Nat.mod_eq_of_lt w.isLt
  rcases hphase with hphase | hphase <;> simp [State.qWrite, State.qConfWrite, hmaint, hphase, hen, hkey, hfits]

end

/-- Q_CTL with its key and one of ENABLE and DISABLE (R476). -/
theorem qWrite_qCtl (hrun : s.pwr.state = .run) (hjob : s.job.phase = .none) (hin : (s.quay p).inService = true) {x : Nat}
    (hkey : fld x 31 16 = 0x5143) (hone : bitOf x 0 ≠ bitOf x 1) : s.qWrite p 0x08 acc x = (s.qCtl p (bitOf x 0)).regOk := by
  rcases hphase with hphase | hphase <;> simp [State.qWrite, State.qCtlWrite, hmaint, hphase, hrun, hjob, hin, hkey, hone]

end

end

/-! ## The harbour common block -/

/-- The word that asks for a snapshot: REQ, CLEAR and USER. -/
def snapWord (user clear : Bool) : Nat := 1 + 2 * b2n clear + 4 * b2n user

theorem bitOf_snapWord (user clear : Bool) :
    bitOf (snapWord user clear) 0 = true ∧ bitOf (snapWord user clear) 1 = clear ∧ bitOf (snapWord user clear) 2 = user := by
  revert user clear
  decide

/-- H_CNT_SNAP with REQ asks for a snapshot where none is under way (R381). -/
theorem hWrite_snapWord {s : State} (hbusy : s.snap.busy = false) (acc : Acc) (user clear : Bool) :
    s.hWrite 0x60 acc (snapWord user clear) =
      State.regOk { s with snap := { s.snap with busy := true, user := user, clear := clear, at_ := s.tide.now + 1024 } } := by
  obtain ⟨hreq, hclear, huser⟩ := bitOf_snapWord user clear
  have hrule : s.hWrite 0x60 acc (snapWord user clear) = s.snapWrite 0x60 acc (snapWord user clear) := rfl
  simp [hrule, State.snapWrite, hreq, hclear, huser, hbusy]

/-- A read of H_BATCH_OPEN opens the next pass and shows its version (R291). -/
theorem hRead_batchOpen (s : State) : s.hRead 0x80 = (s.batchOpen, s.batchOpen.refr.passVer % 2 ^ 32) := rfl

/-- Settles O33: each access reaches its block's rule, and a special command's write does its own register's work there. -/
theorem registerAccessRuns : Obligations.RegisterAccessRuns := by
  intro s p off addr acc w user clear hp hpriv
  refine ⟨fun hopen => ?quay, fun hhold => ?harbour⟩
  case quay =>
    have ⟨hquay, _, _, hlive, _⟩ := hopen
    have haside {o x : Nat} {t : State} (hreg : qReg o = true) (ho : o < 0x4000 ∧ o % 4 = 0) (hrule : s.qWrite p o acc x = t) :=
      aside_regWrite_quay hpriv hopen (regBlk_qAddr hquay ho.1 ho.2) hreg hp hrule
    have hctl := fun x => regWrite_quay hpriv hopen (regBlk_qAddr hquay (off := 0x08) (by decide) (by decide)) (by decide) x
    refine ⟨?pop, fun hmaint harray => ?flip, fun hmaint hphase hen => ⟨?hi, fun k hkey => ?lo⟩,
      fun hmaint hrun hjob hphase hin => ⟨fun _ => ?enable, fun _ => ?disable⟩, fun hreg hoff hword => ⟨?write, ?reads⟩⟩
    case pop => exact haside (by decide) (by decide) (qWrite_errqPop hlive)
    case flip => exact haside (by decide) (by decide) (qWrite_eccFlip hlive hmaint harray)
    case hi => exact haside (by decide) (by decide) (qWrite_paramHi hmaint hphase hen w)
    case lo => exact haside (by decide) (by decide) (qWrite_paramLo hmaint hphase hen w hkey)
    case enable => exact command_gives hp ((hctl _).trans (qWrite_qCtl hmaint hphase hrun hjob hin (by decide) (by decide)))
    case disable => exact command_gives hp ((hctl _).trans (qWrite_qCtl hmaint hphase hrun hjob hin (by decide) (by decide)))
    case write => exact command_gives hp (regWrite_quay hpriv hopen (regBlk_qAddr hquay hoff hword) hreg _)
    case reads =>
      exact exec_registerReads hp (readWorks_qAddr p off) (regRead_quay hpriv hopen (regBlk_qAddr hquay hoff hword) hreg)
  case harbour =>
    refine ⟨fun hbusy => ?snap, ?batch, fun hblk hreg => ⟨?write, fun hoff => ?reads⟩⟩
    case snap =>
      have hwrite := regWrite_harbour (addr := 0x60) (off := 0x60) hpriv hhold (by decide) (by decide)
      exact command_gives hp ((hwrite _).trans (hWrite_snapWord hbusy acc user clear))
    case batch =>
      have hread := regRead_harbour (addr := 0x80) (off := 0x80) hpriv hhold (by decide) (by decide)
      exact command_gives hp (by rw [hread, hRead_batchOpen])
    case write => exact command_gives hp (regWrite_harbour hpriv hhold hblk hreg _)
    case reads => exact exec_registerReads hp (readWorks_harbour hblk hoff) (regRead_harbour hpriv hhold hblk hreg)

end Sys2Proof.Proofs
end

section
/-! O53: the channel commands of a quay (R444). Only the tag of a command changes when it is sent, and it is sent where no command before it
conflicts with it; so sending keeps the order, and so does adding commands that wait. -/

namespace Sys2Proof.Proofs

open Sys2Proof Sys2Proof.Machine Sys2Proof.Laws

/-- A command is held back exactly where one of those before it conflicts with it. -/
theorem mcBlocked_eq_false_iff {xs : List McCmd} {e : McCmd} :
    mcBlocked xs e.addr e.wr.isSome = false ↔ ∀ a ∈ xs, a.conflicts e = false := by
  simp only [mcBlocked, List.any_eq_false, McCmd.conflicts, Bool.or_comm e.wr.isSome, Bool.not_eq_true]

/-- Sending a command that no command before it conflicts with keeps the order. -/
theorem mcOrdered_send {xs ys : List McCmd} {e : McCmd} (h : McOrdered (xs ++ e :: ys))
    (hfree : ∀ a ∈ xs, a.conflicts e = false) (tag : Option Nat) (now : Nat) :
    McOrdered (xs ++ { e with tag := tag, since := now } :: ys) := by
  obtain ⟨hxs, hys, hcross⟩ := List.pairwise_append.mp h
  obtain ⟨he, hys⟩ := List.pairwise_cons.mp hys
  refine List.pairwise_append.mpr ⟨hxs, List.pairwise_cons.mpr ⟨he, hys⟩, fun a ha b hb hconf => ?_⟩
  rcases List.mem_cons.mp hb with rfl | hb
  · exact absurd hconf (by simpa [McCmd.conflicts] using hfree a ha)
  · exact hcross a ha b (List.mem_cons_of_mem e hb) hconf

/-- Giving tags to the waiting commands of `t`, the commands before it being `es` in reverse, keeps the order (R444). -/
theorem mcOrdered_mcIssue (now : Nat) {t : List McCmd} :
    ∀ {tag : Nat} {es : List McCmd}, McOrdered (es.reverse ++ t) → McOrdered (es.reverse ++ (mcIssue now tag es t).1) := by
  induction t with
  | nil => exact fun h => h
  | cons e t ih =>
    intro tag es h
    rw [mcIssue]
    split
    case isTrue hsend =>
      obtain ⟨⟨-, hfree⟩, -⟩ : (_ ∧ mcBlocked es e.addr e.wr.isSome = false) ∧ _ := by simpa using hsend
      have hfree : ∀ a ∈ es.reverse, a.conflicts e = false := fun a ha =>
        mcBlocked_eq_false_iff.mp hfree a (List.mem_reverse.mp ha)
      have hsent := mcOrdered_send h hfree (some tag) now
      simpa using ih (tag := tag + 1) (es := { e with tag := some tag, since := now } :: es) (by simpa using hsent)
    case isFalse => simpa using ih (tag := tag) (es := e :: es) (by simpa using h)

/-- Commands that wait join the end of an ordered queue. -/
theorem mcOrdered_append {mc es : List McCmd} (h : McOrdered mc) (hwait : ∀ e ∈ es, e.tag = none) : McOrdered (mc ++ es) := by
  have hes : McOrdered es := List.pairwise_of_forall_mem_list fun _ _ b hb _ => hwait b hb
  exact List.pairwise_append.mpr ⟨h, hes, fun _ _ b hb _ => hwait b hb⟩

theorem mcOrdered_mcPump (now : Nat) {q : Quay} {es : List McCmd} (h : McOrdered q.mc) (hwait : ∀ e ∈ es, e.tag = none) :
    McOrdered (Quay.mcPump now { q with mc := q.mc ++ es }).mc := by
  have hjoined : McOrdered (q.mc ++ es) := mcOrdered_append h hwait
  exact mcOrdered_mcIssue now (t := q.mc ++ es) (es := []) hjoined

/-- Of two commands that have been sent, the later one conflicts with none before it. -/
theorem mcSent_conflictFree {mc : List McCmd} (h : McOrdered mc) : (mcSent mc).Pairwise (fun a b => a.conflicts b = false) := by
  refine (h.filter _).imp_of_mem fun _ hb hab => ?_
  have hsent : _ = true := (List.mem_filter.mp hb).2
  exact Bool.eq_false_iff.mpr fun hconf => by simp [hab hconf] at hsent

/-- One more command that waits, at one quay, keeps the order at every quay. -/
theorem mcOrdered_modQuay_push {s : State} {p n now : Nat} {e : McCmd} (hwait : e.tag = none) (h : McOrdered (s.quay p).mc) :
    McOrdered ((s.modQuay n (fun q => Quay.mcPump now { q with mc := q.mc ++ [e] })).quay p).mc := by
  by_cases hp : p = n
  · subst hp
    rw [modQuay_self]
    exact mcOrdered_mcPump now h (by simpa using hwait)
  · rwa [modQuay_ne s _ hp]

theorem mcOrdered_issueRead {s : State} {p : Nat} (h : McOrdered (s.quay p).mc) (l addr : Nat) (u : McUse) :
    McOrdered ((s.issueRead l addr u).quay p).mc := by
  unfold State.issueRead State.modLquay
  split
  · exact h
  · exact mcOrdered_modQuay_push rfl h

theorem quay_applyWrite (s : State) (l addr p : Nat) (d : McData) : (s.applyWrite l addr d).quay p = s.quay p := by
  obtain ⟨m, marks, bad, heq⟩ := applyWrite_frame s l addr d
  rw [heq]
  rfl

theorem mcOrdered_issueWrite {s : State} {p : Nat} (h : McOrdered (s.quay p).mc) (l addr : Nat) (mask : BitVec 128) (d : Line)
    (poison : Bool) (u : McUse) : McOrdered ((s.issueWrite l addr mask d poison u).quay p).mc := by
  unfold State.issueWrite
  split
  · exact h
  · exact mcOrdered_modQuay_push rfl (by rwa [quay_applyWrite])

/-- Settles O53: sent commands do not conflict, and reads and writes join the queue and are sent in order. -/
theorem channelConflictFree : Obligations.ChannelConflictFree :=
  ⟨fun _ h => mcSent_conflictFree h, fun now _ _ h hwait => mcOrdered_mcPump now h hwait,
    fun _ l _ addr mask d poison u h => ⟨mcOrdered_issueRead h l addr u, mcOrdered_issueWrite h l addr mask d poison u⟩⟩

end Sys2Proof.Proofs
end

section
/-! O1, O2, O5, O6 and O36: a step, what reset leaves, and the commands that do nothing: those of a harbour without supply, and those at a
port position that the integration lacks. What such a command answers is said once per wrapper of Settle.lean. -/

namespace Sys2Proof.Proofs

open Sys2Proof Sys2Proof.Machine Sys2Proof.Laws

/-! ## A step -/

/-- Settles O1: both clauses are the two cases of the queue. -/
theorem stepRunsCommand : Obligations.StepRunsCommand :=
  ⟨fun _ _ _ => rfl, fun s hempty => by rw [step, hempty]⟩

/-- Settles O2: the queue after a step is the tail of the queue before it. -/
theorem queueAdvances : Obligations.QueueAdvances := by
  intro s t c rest hqueue hstep
  rw [(step_keeps hstep).1, hqueue, List.tail_cons]

/-- Settles O5: no quay is in the table after reset, so each reads as a fresh one, and the harbour's parts stand at their own reset values. -/
theorem resetState : Obligations.ResetState :=
  ⟨fun _ => ⟨rfl, rfl, rfl⟩, rfl, rfl, rfl, rfl, rfl, rfl, rfl, rfl⟩

/-! ## A port position that the integration lacks (R434) -/

theorem cpCommand_absent {s : State} {op : Nat} {r : CpReq} (habsent : ¬ s.HasPort r.pos) :
    s.cpCommand op r = .fault .noSuchPort := by
  have hpos : s.fit.nActive ≤ r.pos := Nat.le_of_not_lt habsent
  simp [State.cpCommand, hpos]

theorem arrival_frameIn_absent {s : State} {l : Nat} (habsent : ¬ s.HasPort l) (vc : Nat) (f : Frame) (row : Bool)
    (k : State → State) : s.arrival (s.frameIn l vc f row k) = .fault .noSuchPort := by
  have hfault : s.frameIn l vc f row k = .fault .noSuchPort := if_pos (Nat.le_of_not_lt habsent)
  rw [hfault, State.arrival]

theorem arrival_msgIn_absent {s : State} {l : Nat} (habsent : ¬ s.HasPort l) (t : Tx) :
    s.arrival (s.msgIn l t) = .fault .noSuchPort := by
  have hfault : s.msgIn l t = .fault .noSuchPort := if_pos (Nat.le_of_not_lt habsent)
  rw [hfault, State.arrival]

/-- Settles O36: the compute port's requests, the commands at a position, frames and messages all look for their position first. -/
theorem absentPortStops : Obligations.AbsentPortStops := by
  intro s l n r f d a m hlack hpos
  have habsent : ¬ s.HasPort l := Nat.not_lt.mpr hlack
  have hcp (op : Nat) : s.cpCommand op r = .fault .noSuchPort := cpCommand_absent (hpos ▸ habsent)
  have hport (k : State → State) : s.atPort l k = .fault .noSuchPort := atPort_absent habsent k
  have hframe := arrival_frameIn_absent habsent
  have hmsg := arrival_msgIn_absent habsent
  exact ⟨hcp _, hcp _, hcp _, hcp _, hcp _, hport _, hport _, hport _, hport _, hport _, hframe _ _ _ _, hframe _ _ _ _, hframe _ _ _ _,
    hframe _ _ _ _, hframe _ _ _ _, hframe _ _ _ _, hmsg _, hmsg _⟩

/-! ## A harbour without supply (R426) -/

/-- The answers of a command that does nothing: the state as it is, or a stop for want of a port position (R434). -/
def Ignores (s : State) (o : Host.Outcome State Fault Refusal) : Prop := o = .next s ∨ o = .fault .noSuchPort

theorem ignores_ite {s : State} {p : Prop} [Decidable p] {o o' : Host.Outcome State Fault Refusal} (h : Ignores s o) (h' : Ignores s o') :
    Ignores s (if p then o else o') := by
  split
  · exact h
  · exact h'

theorem ignores_stop (s : State) : Ignores s (.fault .noSuchPort) := .inr rfl

/-- An answer that is no refusal. -/
def Answers (o : Host.Outcome State Fault Refusal) : Prop := ∀ e, o ≠ .refused e

theorem recv_answers (s : State) (l vc : Nat) (f : Frame) (kindOk : Bool) (src : Option Nat) (k : State → State) :
    Answers (s.recv l vc f kindOk src k) := by
  unfold State.recv
  split_ifs <;> rintro _ ⟨⟩

theorem recvMsg_answers (s : State) (l : Nat) (t : Tx) (k : State → State) : Answers (s.recvMsg l t k) := by
  unfold State.recvMsg
  split_ifs <;> rintro _ ⟨⟩

theorem frameIn_answers (s : State) (l vc : Nat) (f : Frame) (row : Bool) (k : State → State) : Answers (s.frameIn l vc f row k) :=
  recv_answers s l vc f _ _ _

theorem msgIn_answers (s : State) (l : Nat) (t : Tx) : Answers (s.msgIn l t) := recvMsg_answers s l t _

section
variable {s : State} (hoff : s.pwr.off = true)
include hoff

theorem command_ignores (k : State → State) : Ignores s (s.command k) := .inl (command_off hoff k)

theorem aside_ignores (k : State → State) : Ignores s (s.aside k) := .inl (aside_off hoff k)

theorem dueCommand_ignores (e : DueEv) (k : State → State) : Ignores s (s.dueCommand e k) := command_ignores hoff _

theorem atPort_ignores (l : Nat) (k : State → State) : Ignores s (s.atPort l k) := ignores_ite (ignores_stop s) (command_ignores hoff k)

theorem cpCommand_ignores (op : Nat) (r : CpReq) : Ignores s (s.cpCommand op r) := ignores_ite (ignores_stop s) (command_ignores hoff _)

/-- Whatever has arrived has no effect. -/
theorem arrival_ignores {o : Host.Outcome State Fault Refusal} (ho : Answers o) : Ignores s (s.arrival o) := by
  cases o with
  | next t => exact .inl (if_pos hoff)
  | fault e =>
    cases e
    exact ignores_stop s
  | refused e => exact absurd rfl (ho e)

theorem frame_ignores (l vc : Nat) (f : Frame) (row : Bool) (k : State → State) : Ignores s (s.arrival (s.frameIn l vc f row k)) :=
  arrival_ignores hoff (frameIn_answers s l vc f row k)

theorem msg_ignores (l : Nat) (t : Tx) : Ignores s (s.arrival (s.msgIn l t)) := arrival_ignores hoff (msgIn_answers s l t)

/-- Without supply every command but a reset and the removal does nothing: each is a call of one wrapper. -/
theorem exec_ignores (c : Instr) (hreset : ∀ a b, c ≠ .qreset a b) (hremoved : c ≠ .supplyRemoved) : Ignores s (exec c s) := by
  cases c with
  | qreset a b => exact absurd rfl (hreset a b)
  | supplyRemoved => exact absurd rfl hremoved
  | cpRead | cpWrite | cpRemoteRead | cpRemoteWrite | cpRemoteAtomic => exact cpCommand_ignores hoff _ _
  | mcReadData | mcWriteAck | mcTimeout | lighterHoldExpiry | lighterAckTimeout | sealLate | anchorTimeout | rmtAckTimeout | rmtLifeExpiry
  | streamRecordFree | combFlush | combIdle | salvFreezeExpiry | voteReport | tileOpenExpiry | lockerAckTimeout | ppLinkDown | ppLinkUp
  | ppFlitCredit => exact atPort_ignores hoff _ _
  | mooringVoteSlot | dredgeSlot | knownAnswerRun | lockStepWindowClose | coldFlushWindow => exact dueCommand_ignores hoff _ _
  | heartbeatSend | gradeSettleExpiry | pilotGradeChange | presenceChange | sealLoopRestore | qErrqPop | eccFlipArm | paramValLoWrite
  | paramValHiWrite | evtIrqExpiry | bypass | idcode | samplePreload | extest | clamp | highz | dbgMemData | tapReset | hrFlitCredit
  | sidebandGlitch => apply aside_ignores hoff
  | registerLoRead | registerReadClear => exact ignores_ite (command_ignores hoff _) (aside_ignores hoff _)
  | anchorRequest | anchorAnswer | streamReset | streamResetAnswer | salvageFreeze | frozen | salvagePass | salvageChainSum | helperLines
  | jobImagePieceRequest | jobImagePiece => exact msg_ignores hoff _ _
  | parityDeltaLighter | lighterAck | anchorDone | mooringVote | voteRelay
  | voteRelayEmpty | joinMessage | fenceNotice | taint | collectiveAbort | displacementNotice | collContribution | collEnd | collResult
  | collBlock | collFinish | collStale | remoteReadRequest | remoteWriteRequest | atomicAdd | atomicMin | atomicMax | atomicCas
  | remoteReadReply | remoteWriteAnswer | remoteAtomicReply
  | refreshData | refreshEnd | refreshResyncRequest | lockerWriteAnswer | lockerReadReply =>
    exact frame_ignores hoff _ _ _ _ _
  | _ => exact command_ignores hoff _

end

/-- Settles O6: each command but those two is a call of a wrapper that looks at the supply before its effect. -/
theorem offIgnores : Obligations.OffIgnores := fun c _ hoff hreset hremoved => exec_ignores hoff c hreset hremoved

end Sys2Proof.Proofs
end

section
/-! O45: the alarm cause (R370). What logging an event touches is said once per operation a record goes through: of each quay its event state, its
counters and its channel commands, and of H_ALARM_CAUSE nothing but the bit of an ALARM. -/

namespace Sys2Proof.Proofs

open Sys2Proof Sys2Proof.Machine Sys2Proof.Laws

/-! ## What logging leaves as it is -/

/-- `q'` is `q` but for its event state, its counters and its channel commands. -/
def QuayLogged (q q' : Quay) : Prop := ∃ e c mc tag, q' = { q with ev := e, cnt := c, mc := mc, mcTag := tag }

theorem QuayLogged.refl (q : Quay) : QuayLogged q q := ⟨_, _, _, _, rfl⟩

theorem QuayLogged.trans {a b c : Quay} (h : QuayLogged a b) (h' : QuayLogged b c) : QuayLogged a c := by
  obtain ⟨_, _, _, _, rfl⟩ := h
  obtain ⟨_, _, _, _, rfl⟩ := h'
  exact ⟨_, _, _, _, rfl⟩

/-- Each quay of `t` is that of `s` but for what logging touches. -/
def QuaysLogged (s t : State) : Prop := ∀ p, QuayLogged (s.quay p) (t.quay p)

/-- Besides, `t` has the alarm cause of `s`. -/
def Logged (s t : State) : Prop := t.ev.alarm = s.ev.alarm ∧ QuaysLogged s t

theorem Logged.refl (s : State) : Logged s s := ⟨rfl, fun p => .refl (s.quay p)⟩

theorem Logged.trans {a b c : State} (h : Logged a b) (h' : Logged b c) : Logged a c :=
  ⟨h'.1.trans h.1, fun p => (h.2 p).trans (h'.2 p)⟩

/-- An update that keeps the quays and the alarm cause. -/
theorem Logged.of_eq {s t : State} (hquays : t.quays = s.quays) (halarm : t.ev.alarm = s.ev.alarm) : Logged s t := by
  refine ⟨halarm, fun p => ?_⟩
  rw [State.quay, State.quay, hquays]
  exact .refl _

theorem logged_modQuay {f : Quay → Quay} (hf : ∀ q, QuayLogged q (f q)) (s : State) (p : Nat) : Logged s (s.modQuay p f) := by
  refine ⟨rfl, fun n => ?_⟩
  by_cases hn : n = p
  · rw [hn, modQuay_self]
    exact hf _
  · rw [modQuay_ne s f hn]
    exact .refl _

theorem logged_countP (s : State) (p ev k : Nat) (a : CntAttr) : Logged s (s.countP p ev k a) := by
  have hcount : Logged s (s.modQuay p (fun q => { q with cnt := (s.quay p).cnt.tally ev k a })) :=
    logged_modQuay (fun q => ⟨_, _, _, _, rfl⟩) s p
  unfold State.countP
  dsimp only
  split_ifs
  · exact .refl s
  · exact hcount
  · exact hcount.trans (.of_eq rfl rfl)

theorem logged_ringSend (s : State) (p dst cls : Nat) (m : RingMsg) : Logged s (s.ringSend p dst cls m) := by
  unfold State.ringSend
  dsimp only
  split
  · exact .refl s
  · exact .of_eq rfl rfl

theorem logged_issueWrite (s : State) (l addr : Nat) (mask : BitVec 128) (d : Line) (poison : Bool) (u : McUse) :
    Logged s (s.issueWrite l addr mask d poison u) := by
  unfold State.issueWrite
  split
  · exact .refl s
  · obtain ⟨m, marks, bad, heq⟩ := applyWrite_frame s l (lineOf (addr % 2 ^ 40))
      { mask := mask, data := d, poison := poison, old := s.readLine l (lineOf (addr % 2 ^ 40)),
        oldPoison := s.isPoisoned l (lineOf (addr % 2 ^ 40)) }
    dsimp only
    rw [heq]
    exact Logged.trans (.of_eq rfl rfl) (logged_modQuay (fun q => ⟨_, _, _, _, rfl⟩) _ _)

theorem logged_writeB (s : State) (l addr n v : Nat) (u : McUse) : Logged s (s.writeB l addr n v u) :=
  foldS_keeps (P := Logged s) (fun _ _ h => h.trans (logged_issueWrite _ _ _ _ _ _ _)) _ (.refl s)

theorem logged_evIrqTest (s : State) : Logged s s.evIrqTest := by
  unfold State.evIrqTest
  split
  · exact .of_eq rfl rfl
  · exact .refl s

theorem logged_evWrite (s : State) (r : EvRec) : Logged s (s.evWrite r) :=
  ((logged_writeB _ _ _ _ _ _).trans (logged_writeB _ _ _ _ _ _)).trans (Logged.trans (.of_eq rfl rfl) (logged_evIrqTest _))

theorem logged_evMiss (s : State) (r : EvRec) (gap : Bool) : Logged s (s.evMiss r gap) := by
  unfold State.evMiss State.evLose
  have hgap : Logged s (if gap then { s with ev := { s.ev with gap := s.ev.gap.set r.sev (s.ev.gap.get 0 r.sev + 1) } } else s) := by
    split
    · exact .of_eq rfl rfl
    · exact .refl s
  dsimp only
  split
  · exact hgap.trans (logged_countP _ _ _ _ _)
  · exact hgap

theorem logged_sampleLeft (s : State) (r : EvRec) (n : Nat) : Logged s (s.sampleLeft r n) := .of_eq rfl rfl

theorem logged_evCarry (s : State) (r : EvRec) (sampled : Bool) : Logged s (s.evCarry r sampled) :=
  (Logged.of_eq (t := { s with ev := { s.ev with samples := s.ev.samples.del (r.pquay, r.code) } }) rfl rfl).trans (logged_evWrite _ _)

theorem logged_leftLost (s : State) : Logged s s.leftLost := by
  unfold State.leftLost
  dsimp only
  split
  · exact .of_eq rfl rfl
  · exact Logged.trans (.of_eq rfl rfl) (logged_countP _ _ _ _ _)

theorem logged_evRing (s : State) (r : EvRec) : Logged s (s.evRing r) := by
  have hfull (t : State) : Logged t { t with ev := { t.ev with full := true } } := .of_eq rfl rfl
  unfold State.evRing
  dsimp only
  split_ifs
  · exact logged_evMiss _ _ _
  · exact (logged_evMiss _ _ _).trans (hfull _)
  · exact ((logged_leftLost _).trans (logged_evMiss _ _ _)).trans (hfull _)
  · exact logged_sampleLeft _ _ _
  · exact (logged_sampleLeft _ _ _).trans (logged_countP _ _ _ _ _)
  · exact logged_evCarry _ _ _
  · exact logged_evWrite _ _
  · exact logged_evCarry _ _ _

theorem logged_evRoute (s : State) (home : Nat) (r : EvRec) (codes : List Nat) : Logged s (s.evRoute home r codes) := by
  have hpush : Logged s (if 2 ≤ r.sev then s.modQuay home (fun q => { q with ev := q.ev.push r codes }) else s) := by
    split
    · exact logged_modQuay (fun q => ⟨_, _, _, _, rfl⟩) s home
    · exact .refl s
  unfold State.evRoute
  refine hpush.trans ?_
  dsimp only
  generalize (if 2 ≤ r.sev then s.modQuay home (fun q => { q with ev := q.ev.push r codes }) else s) = t
  split
  · exact (logged_ringSend _ _ _ _ _).trans (logged_evRing _ _)
  · exact logged_modQuay (fun q => ⟨_, _, _, _, rfl⟩) t _

theorem logged_stormEnd (s : State) (p : Nat) : Logged s (s.stormEnd p) := by
  unfold State.stormEnd
  dsimp only
  split
  · exact .refl s
  · exact foldS_keeps (P := Logged s) (fun _ _ h => h.trans (logged_evRoute _ _ _ _)) _ (logged_modQuay (fun q => ⟨_, _, _, _, rfl⟩) s p)

/-! ## Raising an event -/

/-- The alarm cause an event of a severity leaves: its own bit is added where the severity is ALARM. -/
def raisedAlarm (alarm : Word) (e : Evt) (sev : Nat) : Word :=
  if sev = 3 then (e.alarmBit.map (fun b => alarm ||| BitVec.ofNat 32 (2 ^ b))).getD alarm else alarm

/-- The alarm bit of an event, where its severity is ALARM. -/
def setCause (e : Evt) (sev : Nat) (s : State) : State :=
  if sev == 3 then whenSome e.alarmBit (fun b s => s.setAlarm b) s else s

theorem setCause_alarm (e : Evt) (sev : Nat) (s : State) : (setCause e sev s).ev.alarm = raisedAlarm s.ev.alarm e sev := by
  by_cases hsev : sev = 3
  · rcases hbit : e.alarmBit with _ | b <;> simp [setCause, hsev, raisedAlarm, whenSome, hbit, State.setAlarm]
  · simp [setCause, hsev, raisedAlarm]

theorem setCause_quay (e : Evt) (sev : Nat) (s : State) (n : Nat) : (setCause e sev s).quay n = s.quay n := by
  unfold setCause whenSome
  split_ifs
  · split <;> rfl
  · rfl

/-- Once the bit is set, the record goes its way or is suppressed. -/
theorem evRaise_logged (s : State) (p home : Nat) (e : Evt) (sev a0 a1 nest : Nat) :
    Logged (setCause e sev ((s.stormEnd p).countP p 0x0E 1)) (s.evRaise p home e sev a0 a1 nest) := by
  have hstart : (if sev == 3 then whenSome e.alarmBit (fun b s => s.setAlarm b) ((s.stormEnd p).countP p 0x0E 1) else
    (s.stormEnd p).countP p 0x0E 1) = setCause e sev ((s.stormEnd p).countP p 0x0E 1) := rfl
  unfold State.evRaise
  dsimp only
  rw [hstart]
  generalize setCause e sev ((s.stormEnd p).countP p 0x0E 1) = t
  split
  · exact (logged_modQuay (fun q => ⟨_, _, _, _, rfl⟩) t p).trans (logged_evRoute _ _ _ _)
  · exact ((logged_modQuay (fun q => ⟨_, _, _, _, rfl⟩) t p).trans (logged_modQuay (fun q => ⟨_, _, _, _, rfl⟩) _ p)).trans
      (logged_countP _ _ _ _ _)

theorem logged_beforeCause (s : State) (p : Nat) : Logged s ((s.stormEnd p).countP p 0x0E 1) :=
  (logged_stormEnd s p).trans (logged_countP _ _ _ _ _)

/-- An event adds its bit whatever becomes of its record (R370). -/
theorem evQ_alarm (s : State) (p : Nat) (e : Evt) (args : List (Nat × Nat)) :
    (s.evQ p e args).ev.alarm = raisedAlarm s.ev.alarm e e.sev := by
  rw [State.evQ, (evRaise_logged s p p e e.sev _ _ _).1, setCause_alarm, (logged_beforeCause s p).1]

/-- An event touches nothing of a quay but its event state, its counters and its channel commands. -/
theorem evQ_quaysLogged (s : State) (p : Nat) (e : Evt) (args : List (Nat × Nat)) : QuaysLogged s (s.evQ p e args) := by
  intro n
  refine QuayLogged.trans ?_ ((evRaise_logged s p p e e.sev _ _ _).2 n)
  rw [setCause_quay]
  exact (logged_beforeCause s p).2 n

theorem getLsbD_two_pow {i j : Nat} (hi : i < 32) : (BitVec.ofNat 32 (2 ^ j)).getLsbD i = decide (i = j) := by
  simp only [BitVec.getLsbD_ofNat, hi, Nat.testBit_two_pow, decide_true, Bool.true_and, eq_comm]

theorem alarmBit_lt {e : Evt} {b : Nat} (h : e.alarmBit = some b) : b < 32 := by
  unfold Evt.alarmBit at h
  split at h <;> cases h <;> decide

theorem getLsbD_raisedAlarm_of_alarmBit {alarm : Word} {e : Evt} {b : Nat} (hbit : e.alarmBit = some b) :
    (raisedAlarm alarm e 3).getLsbD b = true := by
  simp only [raisedAlarm, hbit, if_true, Option.map_some, Option.getD_some, BitVec.getLsbD_or, getLsbD_two_pow (alarmBit_lt hbit), decide_true,
    Bool.or_true]

theorem getLsbD_raisedAlarm_of_getLsbD {alarm : Word} {b : Nat} (h : alarm.getLsbD b = true) (e : Evt) (sev : Nat) :
    (raisedAlarm alarm e sev).getLsbD b = true := by
  unfold raisedAlarm
  split
  · rcases e.alarmBit with _ | b' <;> simp [h]
  · exact h

/-! ## Clearing a bit -/

/-- A write of H_ALARM_CAUSE clears the bits it has set, but for those whose condition is live (R370). -/
theorem hWrite_alarm (s : State) (acc : Acc) (w : Word) : (s.hWrite 0x54 acc w.toNat).ev.alarm = s.ev.alarm &&& ~~~(w &&& ~~~s.alarmLive) := by
  have hrule : s.hWrite 0x54 acc w.toNat =
    State.regOk { s with ev := { s.ev with alarm := s.ev.alarm &&& ~~~(BitVec.ofNat 32 w.toNat &&& ~~~s.alarmLive) } } := rfl
  rw [hrule, BitVec.ofNat_toNat, BitVec.setWidth_eq]
  rfl

theorem getLsbD_clear (alarm w live : Word) (b : Nat) :
    (alarm &&& ~~~(w &&& ~~~live)).getLsbD b = (alarm.getLsbD b && !(w.getLsbD b && !live.getLsbD b)) := by
  by_cases hb : b < 32
  · simp [hb]
  · simp [BitVec.getLsbD_of_ge alarm b (by omega)]

/-- Settles O45: an event adds its bit and a write clears what is not live. -/
theorem alarmCause : Obligations.AlarmCause := by
  intro s p e args acc w
  refine ⟨fun b hsev hbit => ?sets, fun b hset => ?keeps, fun hhold hpriv b => ?clears⟩
  case sets => rw [evQ_alarm, hsev, getLsbD_raisedAlarm_of_alarmBit hbit]
  case keeps => rw [evQ_alarm, getLsbD_raisedAlarm_of_getLsbD hset]
  case clears => rw [regWrite_harbour (off := 0x54) hpriv hhold (by decide) (by decide), hWrite_alarm, getLsbD_clear]

end Sys2Proof.Proofs
end

section
/-! O46: the error queue (R367). Below 60 entries a record takes its own; from there on either one more entry is added or one entry past the
first 60 takes the record in, so the entries before it stay and the counts add up. -/

namespace Sys2Proof.Proofs

open Sys2Proof Sys2Proof.Machine Sys2Proof.Laws

/-- `es` becomes `es'` as `n` events join it past its first 60 entries: as one more entry, below 64, or in an entry that stands there. -/
inductive Joins (n : Nat) (es : List EvRec) : List EvRec → Prop
  | entry (r : EvRec) (hroom : es.length < 64) (hcount : n < 2 ^ 32 → r.count = n) : Joins n es (es ++ [r])
  | merged (pre : List EvRec) (x y : EvRec) (post : List EvRec) (hes : es = pre ++ x :: post) (hpre : 60 ≤ pre.length)
      (hcount : y.count = sat32 (x.count + n)) : Joins n es (pre ++ y :: post)

/-- Merging the entry at one index leaves those before it and after it as they are. -/
theorem mapIf_zipIdx_eq_modify {α : Type} (l : List α) (i : Nat) (f : α → α) :
    (mapIf (fun x : α × Nat => x.2 == i) (fun x => (f x.1, x.2)) l.zipIdx).map (·.1) = l.modify i f := by
  refine List.ext_getElem (by simp [mapIf]) fun j hj _ => ?_
  by_cases hji : j = i <;> simp [mapIf, hji, Ne.symm]

theorem joins_modify {n i : Nat} {es : List EvRec} {f : EvRec → EvRec} (hlo : 60 ≤ i) (hi : i < es.length)
    (hcount : ∀ x, (f x).count = sat32 (x.count + n)) : Joins n es (es.modify i f) := by
  rw [List.modify_eq_take_cons_drop hi]
  refine .merged (es.take i) es[i] _ (es.drop (i + 1)) ?_ ?_ (hcount _)
  · rw [List.cons_getElem_drop_succ, List.take_append_drop]
  · rw [List.length_take]
    omega

theorem sat32_eq {n : Nat} (h : n < 2 ^ 32) : sat32 n = n := Nat.min_eq_left (by omega)

/-- A record that finds 60 entries or more joins the queue past them, and sets OVF (R367). -/
theorem push_joins {q : QEv} (hlo : 60 ≤ q.errq.length) (hhi : q.errq.length ≤ 64) (r : EvRec) (codes : List Nat) :
    (q.push r codes).errqOvf = true ∧ Joins r.count q.errq (q.push r codes).errq := by
  unfold QEv.push
  rw [if_neg (Nat.not_lt.mpr hlo)]
  dsimp only
  split
  case h_1 i hfind =>
    obtain ⟨⟨hge, -⟩, -⟩ : (60 ≤ i ∧ i ≤ 62) ∧ _ := by simpa using List.find?_some hfind
    have hlt : i < q.errq.length := by simpa using List.mem_of_find?_eq_some hfind
    refine ⟨rfl, ?_⟩
    dsimp only
    rw [mapIf_zipIdx_eq_modify q.errq i (fun x => x.merge r)]
    exact joins_modify hge hlt fun _ => rfl
  case h_2 =>
    split_ifs with h63 h64
    · exact ⟨rfl, .entry r (by omega) fun _ => rfl⟩
    · refine ⟨rfl, .entry _ h64 fun hn => ?_⟩
      exact (congrArg sat32 (Nat.zero_add _)).trans (sat32_eq hn)
    · have hlast : 63 < q.errq.length := by omega
      refine ⟨rfl, ?_⟩
      dsimp only
      rw [List.drop_eq_getElem_cons hlast, List.drop_eq_nil_of_le (by omega : q.errq.length ≤ 64)]
      refine .merged (q.errq.take 63) q.errq[63] _ [] ?_ (by rw [List.length_take]; omega) rfl
      rw [← List.drop_eq_nil_of_le (by omega : q.errq.length ≤ 64), List.cons_getElem_drop_succ, List.take_append_drop]

section
variable {n : Nat} {es es' : List EvRec} (h : Joins n es es')
include h

theorem Joins.length_le (hes : es.length ≤ 64) : es'.length ≤ 64 := by
  cases h with
  | entry r hroom => simpa using hroom
  | merged pre x y post heq => simpa [heq] using hes

theorem Joins.take_eq (hes : 60 ≤ es.length) : es'.take 60 = es.take 60 := by
  cases h with
  | entry r => exact List.take_append_of_le_length hes
  | merged pre x y post heq hpre => rw [heq, List.take_append_of_le_length hpre, List.take_append_of_le_length hpre]

/-- No event is lost without a count while the counts do not saturate. -/
theorem Joins.sum_count (hsum : (es.map (·.count)).sum + n < 2 ^ 32) : (es'.map (·.count)).sum = (es.map (·.count)).sum + n := by
  cases h with
  | entry r hroom hcount =>
    have hr : r.count = n := hcount (by omega)
    simp [hr]
  | merged pre x y post heq hpre hcount =>
    subst heq
    simp only [List.map_append, List.map_cons, List.sum_append, List.sum_cons] at hsum ⊢
    rw [hcount, sat32_eq (by omega)]
    omega

end

theorem push_below {q : QEv} (h : q.errq.length < 60) (r : EvRec) (codes : List Nat) :
    q.push r codes = { q with errq := q.errq ++ [r] } := if_pos h

/-- Settles O46: below 60 entries by the record's own, from 60 on by how a record joins the queue past them. -/
theorem errorQueue : Obligations.ErrorQueue := by
  intro q r codes hlen
  rcases Nat.lt_or_ge q.errq.length 60 with hlow | hfull
  · rw [push_below hlow]
    refine ⟨?_, fun _ => ⟨rfl, rfl⟩, fun h => absurd hlow (Nat.not_lt.mpr h), fun _ => ?_, rfl⟩
    · simp only [List.length_append, List.length_singleton]
      omega
    · simp [QEv.total]
  · obtain ⟨hovf, hjoins⟩ := push_joins hfull hlen r codes
    exact ⟨hjoins.length_le hlen, fun h => absurd hfull (Nat.not_le.mpr h), fun _ => ⟨hovf, hjoins.take_eq hfull⟩,
      hjoins.sum_count, rfl⟩

end Sys2Proof.Proofs
end

section
/-! O47: the counters of a quay (R378, R380). What one addition does to a counter and to its wrap bit is said once, for the counter itself and
for every other; the fixed counter and the 16 selectable ones then move one after another. -/

namespace Sys2Proof.Proofs

open Sys2Proof Sys2Proof.Machine Sys2Proof.Laws

/-- From `c` to `t` counter `i` has counted `k` events where `hit` holds, modulo 2^48, with its wrap bit, and stood still else. -/
def Counts (c t : Cnt) (i k : Nat) (hit : Bool) : Prop :=
  t.live.get 0 i = (if hit then (c.live.get 0 i + k) % 2 ^ 48 else c.live.get 0 i) ∧
    t.wrap.getLsbD i = (c.wrap.getLsbD i || (hit && decide (2 ^ 48 ≤ c.live.get 0 i + k)))

/-- What counting leaves alone: the holding registers, the selections and the interrupt enables. -/
def SameSetup (c t : Cnt) : Prop := t.hold = c.hold ∧ t.sel = c.sel ∧ t.irqEn = c.irqEn

theorem counts_refl (c : Cnt) (i k : Nat) : Counts c c i k false := by simp [Counts]

/-- A counter that stood still counts when it is added to. -/
theorem counts_add_self {c t : Cnt} {i k : Nat} (hi : i < 32) (h : Counts c t i k false) : Counts c (t.add i k) i k true := by
  obtain ⟨hlive, hwrap⟩ := h
  simp only [Bool.false_eq_true, if_false, Bool.false_and, Bool.or_false] at hlive hwrap
  unfold Cnt.add
  dsimp only
  rw [hlive]
  split
  case isTrue hlt =>
    refine ⟨?_, ?_⟩
    · rw [Tbl_get_set_self, if_pos rfl, Nat.mod_eq_of_lt hlt]
    · rw [hwrap, decide_eq_false (Nat.not_le.mpr hlt), Bool.and_false, Bool.or_false]
  case isFalse hge =>
    refine ⟨?_, ?_⟩
    · rw [Tbl_get_set_self, if_pos rfl]
    · rw [BitVec.getLsbD_or, getLsbD_two_pow hi, hwrap, decide_eq_true rfl, decide_eq_true (Nat.le_of_not_lt hge), Bool.true_and]

/-- Adding to another counter changes nothing of this one. -/
theorem counts_add_ne {c t : Cnt} {i j k k' : Nat} {hit : Bool} (hi : i < 32) (hj : i ≠ j) (h : Counts c t i k hit) :
    Counts c (t.add j k') i k hit := by
  obtain ⟨hlive, hwrap⟩ := h
  unfold Cnt.add
  dsimp only
  split
  · exact ⟨(Tbl_get_set_ne 0 _ _ hj).trans hlive, hwrap⟩
  · exact ⟨(Tbl_get_set_ne 0 _ _ hj).trans hlive, by simp only [BitVec.getLsbD_or, getLsbD_two_pow hi, hj, decide_false, Bool.or_false, hwrap]⟩

theorem sameSetup_add {c t : Cnt} (h : SameSetup c t) (i k : Nat) : SameSetup c (t.add i k) := by
  unfold Cnt.add
  dsimp only
  split <;> exact h

/-- Whether an event moves counter `i`, of the selectable ones only the first `m` looked at (R380). -/
def counterHit (c : Cnt) (ev : Nat) (a : CntAttr) (m i : Nat) : Bool :=
  if i < 16 then i == ev else decide (i < 16 + m) && c.passes (i - 16) ev a

/-- The counters after the fixed one and the first `m` selectable ones have moved. -/
def tallyUpTo (c : Cnt) (ev k : Nat) (a : CntAttr) (m : Nat) : Cnt :=
  foldS (List.range m) (fun n d => if c.passes n ev a then d.add (16 + n) k else d) (if ev < 16 then c.add ev k else c)

theorem tally_eq (c : Cnt) (ev k : Nat) (a : CntAttr) : c.tally ev k a = tallyUpTo c ev k a 16 := rfl

theorem tallyUpTo_succ (c : Cnt) (ev k : Nat) (a : CntAttr) (m : Nat) :
    tallyUpTo c ev k a (m + 1) =
      if c.passes m ev a then (tallyUpTo c ev k a m).add (16 + m) k else tallyUpTo c ev k a m := by
  simp only [tallyUpTo, foldS, List.range_succ, List.foldl_append, List.foldl_cons, List.foldl_nil]

theorem counts_tallyUpTo (c : Cnt) (ev k : Nat) (a : CntAttr) {i : Nat} (hi : i < 32) (m : Nat) :
    Counts c (tallyUpTo c ev k a m) i k (counterHit c ev a m i) := by
  induction m with
  | zero =>
    have hzero : tallyUpTo c ev k a 0 = if ev < 16 then c.add ev k else c := rfl
    rw [hzero]
    by_cases hie : i = ev
    · subst hie
      by_cases h16 : i < 16
      · simpa [counterHit, h16] using counts_add_self hi (counts_refl c i k)
      · simpa [counterHit, h16] using counts_refl c i k
    · have hno : counterHit c ev a 0 i = false := by
        by_cases h16 : i < 16 <;> simp [counterHit, hie, h16]
      rw [hno]
      split
      · exact counts_add_ne hi hie (counts_refl c i k)
      · exact counts_refl c i k
  | succ m ih =>
    rw [tallyUpTo_succ]
    by_cases him : i = 16 + m
    · subst him
      have hbefore : counterHit c ev a m (16 + m) = false := by simp [counterHit]
      have hnow : counterHit c ev a (m + 1) (16 + m) = c.passes m ev a := by simp [counterHit]
      rw [hbefore] at ih
      rw [hnow]
      rcases hpass : c.passes m ev a with _ | _
      · exact ih
      · exact counts_add_self hi ih
    · have hsame : counterHit c ev a (m + 1) i = counterHit c ev a m i := by
        have hlt : i < 16 + (m + 1) ↔ i < 16 + m := by omega
        simp only [counterHit, hlt]
      rw [hsame]
      split
      · exact counts_add_ne hi him ih
      · exact ih

theorem sameSetup_tally (c : Cnt) (ev k : Nat) (a : CntAttr) : SameSetup c (c.tally ev k a) := by
  have hself : SameSetup c c := ⟨rfl, rfl, rfl⟩
  refine foldS_keeps (P := SameSetup c) (fun n t h => ?_) _ ?_
  · split
    · exact sameSetup_add h _ _
    · exact h
  · split
    · exact sameSetup_add hself _ _
    · exact hself

/-- Settles O47: a counter moves once, where it is the fixed one of the event or a selectable one that the event passes. -/
theorem countersCount : Obligations.CountersCount := by
  intro c ev k i a _ hi _
  have hhit : counterHit c ev a 16 i = if i < 16 then i == ev else c.passes (i - 16) ev a := by simp [counterHit, hi]
  obtain ⟨hlive, hwrap⟩ := counts_tallyUpTo c ev k a hi 16
  rw [hhit] at hlive hwrap
  exact ⟨hlive, hwrap, sameSetup_tally c ev k a⟩

end Sys2Proof.Proofs
end

section
/-! O48: the counter snapshot (R381, R382). The copy goes through the quays in service one by one, each once; telling logical quay 0 and writing
the image touch no counter and no snapshot control, so the copy stands in the state that results. -/

namespace Sys2Proof.Proofs

open Sys2Proof Sys2Proof.Machine Sys2Proof.Laws

/-! ## The copy -/

/-- Copy the counters of the quays of a list into their holding registers (R381). -/
def copyCounters (ps : List Nat) (s : State) : State :=
  foldS ps (fun p s => s.modQuay p (fun q => { q with cnt := q.cnt.snap s.snap.clear })) s

/-- The quays of an allowed integration are numbered once each (R17). -/
theorem physAll_nodup {s : State} (hfit : s.fit.ok = true) : s.physAll.Nodup := by
  have hactive : s.fit.nActive ≤ 16 := by
    simp only [Fit.ok, Bool.and_eq_true, decide_eq_true_eq] at hfit
    omega
  refine List.nodup_append.mpr ⟨List.nodup_range, List.nodup_range.map (fun a b h => by omega), fun a ha b hb => ?_⟩
  have : a < s.fit.nActive := List.mem_range.mp ha
  obtain ⟨c, -, rfl⟩ := List.mem_map.mp hb
  omega

theorem physIn_nodup {s : State} (hfit : s.fit.ok = true) : s.physIn.Nodup := (physAll_nodup hfit).filter _

theorem copyCounters_snap (ps : List Nat) (s : State) : (copyCounters ps s).snap = s.snap :=
  foldS_keeps (P := fun t : State => t.snap = s.snap) (fun p t h => (modQuay_snap t p _).trans h) ps rfl

/-- Each quay of the list copies once, and no other does. -/
theorem copyCounters_cnt {ps : List Nat} (hnodup : ps.Nodup) (s : State) (p : Nat) :
    ((copyCounters ps s).quay p).cnt = if p ∈ ps then (s.quay p).cnt.snap s.snap.clear else (s.quay p).cnt := by
  induction ps generalizing s with
  | nil => rfl
  | cons n ps ih =>
    obtain ⟨hn, hnodup⟩ := List.nodup_cons.mp hnodup
    have hrest : copyCounters (n :: ps) s = copyCounters ps (s.modQuay n (fun q => { q with cnt := q.cnt.snap s.snap.clear })) := rfl
    rw [hrest, ih hnodup]
    by_cases hp : p = n
    · subst hp
      simp [hn]
    · simp [hp, modQuay_ne s _ hp]

theorem snap_hold (c : Cnt) (clear : Bool) :
    (c.snap clear).hold = c.live ∧ (c.snap clear).holdWrap = c.wrap ∧ (c.snap clear).live = if clear then [] else c.live := by
  cases clear <;> exact ⟨rfl, rfl, rfl⟩

/-! ## What touches neither counters nor the snapshot control -/

/-- `t` has the counters of `s` on every quay, and its snapshot control. -/
def KeepsCounters (s t : State) : Prop := t.snap = s.snap ∧ ∀ p, (t.quay p).cnt = (s.quay p).cnt

theorem KeepsCounters.trans {a b c : State} (h : KeepsCounters a b) (h' : KeepsCounters b c) : KeepsCounters a c :=
  ⟨h'.1.trans h.1, fun p => (h'.2 p).trans (h.2 p)⟩

theorem keepsCounters_refl (s : State) : KeepsCounters s s := ⟨rfl, fun _ => rfl⟩

theorem keepsCounters_ringTo (s : State) (l dst cls : Nat) (m : RingMsg) : KeepsCounters s (s.ringTo l dst cls m) := by
  unfold State.ringTo State.ringSend
  dsimp only
  split
  · split <;> exact ⟨rfl, fun _ => rfl⟩
  · exact keepsCounters_refl s

theorem keepsCounters_modQuay {s : State} {f : Quay → Quay} (hf : ∀ q, (f q).cnt = q.cnt) (p : Nat) : KeepsCounters s (s.modQuay p f) := by
  refine ⟨rfl, fun n => ?_⟩
  by_cases hn : n = p
  · rw [hn, modQuay_self, hf]
  · rw [modQuay_ne s f hn]

theorem keepsCounters_issueWrite (s : State) (l addr : Nat) (mask : BitVec 128) (d : Line) (poison : Bool) (u : McUse) :
    KeepsCounters s (s.issueWrite l addr mask d poison u) := by
  unfold State.issueWrite
  split
  · exact keepsCounters_refl s
  · dsimp only
    refine KeepsCounters.trans ?_ (keepsCounters_modQuay (by intro q; rfl) _)
    obtain ⟨m, marks, bad, heq⟩ := applyWrite_frame s l (lineOf (addr % 2 ^ 40))
      { mask := mask, data := d, poison := poison, old := s.readLine l (lineOf (addr % 2 ^ 40)),
        oldPoison := s.isPoisoned l (lineOf (addr % 2 ^ 40)) }
    rw [heq]
    exact ⟨rfl, fun _ => rfl⟩

theorem keepsCounters_ownWrite (s : State) (l addr n v : Nat) : KeepsCounters s (s.ownWrite l addr n v) :=
  foldS_keeps (P := KeepsCounters s) (fun _ _ h => h.trans (keepsCounters_issueWrite _ _ _ _ _ _ _)) _ (keepsCounters_refl s)

/-! ## The end of a snapshot (R382) -/

theorem snapDone_irq (s : State) : s.snapDone.ev.irqStat.getLsbD 3 = true := by
  simp [State.snapDone, State.setIrq]

/-- A snapshot whose image is being written is done once no line of it is on its way. -/
theorem snapGo_writing {s : State} (h : s.snap.writing = true) : s.snapGo = if s.snapOut then s else s.snapDone := by
  rcases hout : s.snapOut with _ | _ <;> simp [State.snapGo, h, hout]

theorem snapOut_iff {s : State} :
    s.snapOut = true ↔ ∃ c ∈ (s.lquay 0).mc, lineOf (s.hpar .cntBase) ≤ c.addr ∧ c.addr < s.hpar .cntBase + 5248 := by
  simp [State.snapOut]

/-! ## The snapshot -/

/-- The state with the counters copied and numbered, before the image (R381). -/
def snapCopied (s : State) : State :=
  let t := copyCounters s.physIn s
  { t with snap := { t.snap with clear := false, stide := t.snap.at_, sseq := t.snap.sseq + 1 } }

/-- The state with logical quay 0 told of the copy and the lines of the image issued (R382). -/
def snapIssued (s : State) : State :=
  (foldS (snapCopied s).lquays (fun l t => t.ringTo l 0 4 (.snapshot t.snap.stide)) (snapCopied s)).ownWrite 0 (s.hpar .cntBase) 5248
    (snapCopied s).snapImage

/-- The state with the image on its way to memory (R382). -/
def snapSent (s : State) : State := { snapIssued s with snap := { (snapIssued s).snap with writing := true } }

theorem snapshot_waits {s : State} (h : s.tide.now < s.snap.at_ ∨ s.snap.writing = true) : s.snapshot = s := by
  have hwaits : (!s.snap.busy || s.snap.writing || decide (s.tide.now < s.snap.at_)) = true := by
    rcases h with h | h <;> simp [h]
  simp [State.snapshot, hwaits]

theorem snapshot_reached {s : State} (hbusy : s.snap.busy = true) (hdue : s.snap.at_ ≤ s.tide.now) (hidle : s.snap.writing = false) :
    s.snapshot = if s.hpar .cntBase == 0 || !(snapCopied s).serving 0 then (snapCopied s).snapDone else (snapSent s).snapGo := by
  have hgoes : ¬ (!s.snap.busy || s.snap.writing || decide (s.tide.now < s.snap.at_)) = true := by
    simp [hbusy, hidle, hdue]
  rw [State.snapshot, if_neg hgoes]
  rfl

/-- `t` has the counters of the snapshot `s` was waiting for. -/
def SnapTaken (s t : State) : Prop :=
  t.snap.stide = s.snap.at_ ∧ ∀ p, (t.quay p).cnt = if p ∈ s.physIn then (s.quay p).cnt.snap s.snap.clear else (s.quay p).cnt

theorem snapTaken_snapCopied {s : State} (hfit : s.fit.ok = true) : SnapTaken s (snapCopied s) :=
  ⟨congrArg Snap.at_ (copyCounters_snap s.physIn s), copyCounters_cnt (physIn_nodup hfit) s⟩

theorem keepsCounters_snapIssued (s : State) : KeepsCounters (snapCopied s) (snapIssued s) :=
  (foldS_keeps (P := KeepsCounters (snapCopied s)) (fun _ _ h => h.trans (keepsCounters_ringTo _ _ _ _ _)) _ (keepsCounters_refl _)).trans
    (keepsCounters_ownWrite _ _ _ _ _)

theorem snapTaken_snapSent {s : State} (hfit : s.fit.ok = true) : SnapTaken s (snapSent s) := by
  obtain ⟨hstide, hcnt⟩ := snapTaken_snapCopied hfit
  obtain ⟨hsnap, hkeeps⟩ := keepsCounters_snapIssued s
  exact ⟨(congrArg Snap.stide hsnap).trans hstide, fun p => (hkeeps p).trans (hcnt p)⟩

theorem snapSent_busy {s : State} (hbusy : s.snap.busy = true) : (snapSent s).snap.busy = true :=
  (congrArg Snap.busy (keepsCounters_snapIssued s).1).trans ((congrArg Snap.busy (copyCounters_snap s.physIn s)).trans hbusy)

/-- A snapshot that T_s has reached is taken, and is done or has a line of its image on its way. -/
theorem snapshot_taken {s : State} (hfit : s.fit.ok = true) (hbusy : s.snap.busy = true) (hdue : s.snap.at_ ≤ s.tide.now)
    (hidle : s.snap.writing = false) :
    SnapTaken s s.snapshot ∧ ((∃ t : State, s.snapshot = t.snapDone) ∨
      s.hpar .cntBase ≠ 0 ∧ s.snapshot.snap.busy = true ∧ s.snapshot.snap.writing = true ∧ s.snapshot.snapOut = true) := by
  rw [snapshot_reached hbusy hdue hidle]
  split
  case isTrue => exact ⟨snapTaken_snapCopied hfit, .inl ⟨_, rfl⟩⟩
  case isFalse hbase =>
    rw [snapGo_writing (s := snapSent s) rfl]
    split
    case isTrue hout =>
      refine ⟨snapTaken_snapSent hfit, .inr ⟨fun h0 => hbase (by rw [h0]; rfl), snapSent_busy hbusy, rfl, hout⟩⟩
    case isFalse => exact ⟨snapTaken_snapSent hfit, .inl ⟨_, rfl⟩⟩

/-- Settles O48: a snapshot waits or is taken, and its end raises CNT. -/
theorem snapshotCopies : Obligations.SnapshotCopies := by
  intro s hfit hbusy
  refine ⟨snapshot_waits, fun hdue hidle => ?taken, fun hwriting hout => ?done⟩
  case taken =>
    obtain ⟨⟨hstide, hcnt⟩, hend⟩ := snapshot_taken hfit hbusy hdue hidle
    have hin (p : Nat) (hp : p ∈ s.physIn) : (s.snapshot.quay p).cnt = (s.quay p).cnt.snap s.snap.clear := (hcnt p).trans (if_pos hp)
    refine ⟨fun p hp => hin p hp ▸ snap_hold _ _, fun p hp => (hcnt p).trans (if_neg hp), hstide, ?_⟩
    rcases hend with ⟨t, ht⟩ | ⟨hbase, hbusy', hwriting, hout⟩
    · rw [ht]
      exact ⟨fun _ => rfl, fun _ => snapDone_irq t, nofun⟩
    · rw [hbusy']
      exact ⟨fun h => absurd h hbase, nofun, fun _ => ⟨hwriting, snapOut_iff.mp hout⟩⟩
  case done =>
    rw [snapGo_writing hwriting, hout, if_neg Bool.false_ne_true]
    exact ⟨rfl, snapDone_irq s⟩

end Sys2Proof.Proofs
end

section
/-! O7, O8 and O30: the ports. What the compute port, the channel port and the links give where nothing stands in the way of a command. -/

namespace Sys2Proof.Proofs

open Sys2Proof Sys2Proof.Machine Sys2Proof.Laws

/-! ## The compute port (R438 to R441) -/

/-- The attributes of a compute-port request that counters may look at (R379). -/
def cpAttr (s : State) (r : CpReq) : CntAttr :=
  { priv := some r.priv, master := some r.master, addr := some r.addr, kind := some (s.kindOf r.pos r.addr) }

/-- In Run an arrival finds nothing to wake. -/
theorem wake_run {s : State} (h : s.pwr.state = .run) : s.wake = s := by
  simp [State.wake, h]

/-- The number of a local request makes no difference to whether it waits. -/
theorem cpStalls_local {op : Nat} (hop : op < 3) (s : State) (r : CpReq) : s.cpStalls op r = s.cpStalls 1 r := by
  have hlocal : ¬ 3 ≤ op := Nat.not_le.mpr hop
  simp [State.cpStalls, hlocal]

/-- A remote request waits for a free outstanding-operation entry besides (R252). -/
theorem cpStalls_remote {s : State} {r : CpReq} (h : s.cpStalls 1 r = false) (hfree : (s.lquay r.pos).rmt.oot.length < 16384) (op : Nat) :
    s.cpStalls op r = false := by
  have hroom : ¬ 16384 ≤ (s.lquay r.pos).rmt.oot.length := Nat.not_le.mpr hfree
  simpa [State.cpStalls, hroom] using h

section
variable {s : State} {r : CpReq} (hlost : s.cpLost r.pos = false) (hcrc : cpCrcBad r = false) (hrun : s.pwr.state = .run)
include hlost hrun

theorem cpTake_read (hstall : s.cpStalls 1 r = false) :
    s.cpTake 1 r = (s.countL r.pos 0x00 1 (cpAttr s r)).readReq r.pos (.cp r.lane r.tag) r.fmt r.addr r.priv r.master := by
  simp [State.cpTake, hlost, hstall, wake_run hrun, cpAttr]

theorem cpTake_remoteRead (hstall : s.cpStalls 3 r = false) : s.cpTake 3 r = s.rmtIssue r.pos r 1 := by
  simp [State.cpTake, hlost, hstall, wake_run hrun]

theorem cpTake_remoteAtomic (hstall : s.cpStalls 5 r = false) : s.cpTake 5 r = s.rmtIssue r.pos r 3 := by
  simp [State.cpTake, hlost, hstall, wake_run hrun]

include hcrc

theorem cpTake_write (hstall : s.cpStalls 2 r = false) :
    s.cpTake 2 r = (s.countL r.pos 0x01 1 (cpAttr s r)).writeReq r.pos (.cp r.lane r.tag) (.write r.mask r.data r.poison) r.addr r.priv r.master := by
  simp [State.cpTake, hlost, hstall, wake_run hrun, hcrc, cpAttr]

theorem cpTake_remoteWrite (hstall : s.cpStalls 4 r = false) : s.cpTake 4 r = s.rmtIssue r.pos r 2 := by
  simp [State.cpTake, hlost, hstall, wake_run hrun, hcrc]

end

/-- With power, a request at a position and a lane that exist gives what the port makes of it. -/
theorem cpCommand_gives {s : State} {op : Nat} {r : CpReq} {k : State → State} (hp : s.Powered) (hport : s.HasPort r.pos) (hlane : r.lane < 4)
    (hk : s.cpTake op r = k s) : s.cpCommand op r = .next (s.after k) := by
  rw [cpCommand_powered hp hport hlane, State.after, hk, State.after]

/-- Settles O7: a request that does not wait and whose check value agrees is the one of its code. -/
theorem computePortRuns : Obligations.ComputePortRuns := by
  intro s r hp hport hlane hlost hstall hcrc hrun
  have hremote := cpStalls_remote hstall
  exact ⟨cpCommand_gives hp hport hlane (cpTake_read hlost hrun hstall),
    cpCommand_gives hp hport hlane (cpTake_write hlost hcrc hrun ((cpStalls_local (by decide) s r).trans hstall)),
    fun hfree => ⟨cpCommand_gives hp hport hlane (cpTake_remoteRead hlost hrun (hremote hfree 3)),
      cpCommand_gives hp hport hlane (cpTake_remoteWrite hlost hcrc hrun (hremote hfree 4)),
      cpCommand_gives hp hport hlane (cpTake_remoteAtomic hlost hrun (hremote hfree 5))⟩⟩

/-! ## The channel port (R442 to R445) -/

/-- With power, a command at a position that exists does what its effect gives there. -/
theorem atPort_gives {s : State} {l : Nat} {k k' : State → State} (hp : s.Powered) (hport : s.HasPort l) (hk : k s = k' s) :
    s.atPort l k = .next (s.after k') := by
  rw [atPort_powered hp hport, State.after, hk, State.after]

section
variable {s : State} {l tag : Nat} {c : McCmd} {d : McData} (hfind : s.mcFind l tag true = some c) (hwr : c.wr = some d)
include hfind hwr

theorem mcAck_ok : s.mcAck l tag 0 = s.ackOk l c := by
  simp [State.mcAck, hfind, hwr]

theorem mcAck_error {status : Nat} (hstatus : status ≠ 0) : s.mcAck l tag status = s.writeErr l c d := by
  simp [State.mcAck, hfind, hwr, hstatus]

end

theorem ackOk_plain {s : State} {l : Nat} {c : McCmd} (hreplay : ∀ slot, c.use ≠ .replay slot)
    (hrebuilt : ∀ cv no line, c.use ≠ .rebuilt cv no line) : s.ackOk l c = s.writeOk l c := by
  unfold State.ackOk
  split
  · next slot huse => exact absurd huse (hreplay slot)
  · next cv no line huse => exact absurd huse (hrebuilt cv no line)
  · rfl

/-- Settles O8: each answer finds the command it is for, which goes on by its use. -/
theorem channelPortAnswers : Obligations.ChannelPortAnswers := by
  intro s pos tag status data c d hp hport
  refine ⟨fun _ => atPort_powered hp hport _, fun hfind hwr => ⟨fun hreplay hrebuilt => ?plain, fun slot huse => ?replay,
    fun cv no line huse => ?rebuilt, fun hstatus => ?error⟩, fun hlate => ?timeout⟩
  case plain => exact atPort_gives hp hport ((mcAck_ok hfind hwr).trans (ackOk_plain hreplay hrebuilt))
  case replay => exact atPort_gives hp hport ((mcAck_ok hfind hwr).trans (by simp only [State.ackOk, huse]))
  case rebuilt => exact atPort_gives hp hport ((mcAck_ok hfind hwr).trans (by simp only [State.ackOk, huse]))
  case error => exact atPort_gives hp hport (mcAck_error hfind hwr hstatus)
  case timeout => exact atPort_gives hp hport (if_pos hlate)

/-! ## Links and credits (R449, R452, R453) -/

/-- With power, a command that moves no work on does what its effect gives at its state. -/
theorem aside_gives {s t : State} {k : State → State} (hp : s.Powered) (hk : k s = t) : s.aside k = .next (t.keep s) := by
  rw [aside_powered hp, hk]

theorem linkCredit_up {s : State} {l vc : Nat} (hup : (s.port l).peer.up = true) (hvc : vc < 8) :
    s.linkCredit l vc = (s.modPort l (fun p =>
      { p with peer := { p.peer with crd := p.peer.crd.set vc (p.peer.crd.get 0 vc + 1) } })).peerPump l := by
  simp [State.linkCredit, hup, Nat.mod_eq_of_lt hvc]

/-- A position that takes packets grants its credits as its link comes up, another keeps them (R425, R452). -/
theorem linkUp_eq (s : State) (l : Nat) :
    s.linkUp l =
      (let start := (List.range 8).map (fun v => (v, initialCredits.getD v 0))
       let own := fun (open_ : Bool) => if s.rxOpen l == open_ then start else []
       (s.modPort l (fun p => { p with peer := { p.peer with up := true, crd := [], kept := own false, grant := own true } })).peerPump l) := by
  unfold State.linkUp
  rcases s.rxOpen l with _ | _ <;> rfl

theorem ringCredit_inRange {s : State} {p cls : Nat} (hfit : s.fitted p = true) (hlo : 1 ≤ cls) (hhi : cls ≤ 6) (east : Bool) :
    s.ringCredit p east cls =
      (let e := s.ring.get {} (p, east)
       { s with ring := s.ring.set (p, east) (ringDrain s.slotWeights e.txq.length { e with crd := e.crd.set cls (e.crd.get 16 cls + 1) }) }) := by
  have hcls : ¬ (!s.fitted p || cls == 0 || decide (6 < cls)) = true := by
    simp [hfit, Nat.not_lt.mpr hhi, Nat.one_le_iff_ne_zero.mp hlo]
  exact if_neg hcls

theorem heartbeat_watched {s : State} {p w : Nat} (hin : (s.quay p).inService = true) (hclock : s.pwr.state ≠ .hold)
    (hwatch : (s.modQuay p (fun q => { q with hb := 0 })).watcher p = some w) :
    s.heartbeat p = (s.modQuay p (fun q => { q with hb := 0 })).ringSend p w 4 .heartbeat := by
  have hbeats : ¬ (!(s.quay p).inService || s.pwr.state == .hold) = true := by simp [hin, hclock]
  rw [State.heartbeat, if_neg hbeats]
  simp only [hwatch]

/-- Settles O30: each link command is its own effect, and a heartbeat goes to the quay that watches. -/
theorem linksRun : Obligations.LinksRun := by
  intro s pos vc p cls w east hp
  refine ⟨fun hport => ⟨atPort_powered hp hport _, atPort_gives hp hport (linkUp_eq s pos), fun hup hvc =>
    atPort_gives hp hport (linkCredit_up hup hvc)⟩, fun hfit hlo hhi => ?credit, fun hin hclock hwatch => ?heartbeat⟩
  case credit => exact aside_gives hp (k := fun s => s.ringCredit p east cls) (ringCredit_inRange hfit hlo hhi east)
  case heartbeat => exact aside_gives hp (k := fun s => s.heartbeat p) (heartbeat_watched hin hclock hwatch)

end Sys2Proof.Proofs
end

section
/-! O27, O31 and O32: start-up, power requests, warm restart and charter rewrite. -/

namespace Sys2Proof.Proofs

open Sys2Proof Sys2Proof.Machine Sys2Proof.Laws

/-! ## Start-up (R394) -/

theorem startUp_begins {s : State} (hp : s.Powered) (hphase : s.boot.phase = 1) (htide : s.tide.started = true) (ch : CharterPort)
    (bad : List Nat) : s.startUp ch bad = s.startLog.bootRun ch bad := by
  unfold State.Powered at hp
  simp [State.startUp, hphase, htide, hp]

/-- Where the supply has not come back, start-up owes the log no more than SEC_OPEN (R420, R423). -/
theorem startLog_unrestored {s : State} (h : s.pwr.restored = false) :
    s.startLog = if s.sec.state = .opened then s.evH .secOpen else s := by
  simp [State.startLog, h]

/-- Settles O27: past its gate START_UP logs what it owes and runs. -/
theorem startUpRuns : Obligations.StartUpRuns := by
  intro s ch bad hp hphase htide
  have hbegins := startUp_begins hp hphase htide ch bad
  refine ⟨command_gives hp hbegins, fun hrestored => ⟨fun hsec => command_gives hp ?_, fun hsec => command_gives hp ?_⟩⟩
  · rw [hbegins, startLog_unrestored hrestored, if_neg hsec]
  · rw [hbegins, startLog_unrestored hrestored, if_pos hsec]

/-! ## Power requests (R422, R423) -/

/-- Outside Hold, a keyed request waits for the next scan tide. -/
theorem pwrReq_keyed {s : State} (hhold : s.pwr.state ≠ .hold) (r : PwrSt) :
    s.pwrReq 0x5057 r = { s with pwr := { s.pwr with pending := some r, going := false } } := by
  simp [State.pwrReq, hhold]

section
variable {s : State} {r : PwrSt} (hpending : s.pwr.pending = some r)
include hpending

theorem pwrTake_run (hother : r ≠ s.pwr.state) (hrun : r = .run) : s.pwrTake = s.pwrClear.pwrUnpark.setPwr .run := by
  subst hrun
  simp [State.pwrTake, hpending, hother]

theorem pwrTake_refused (hother : r ≠ s.pwr.state) (hrun : r ≠ .run) {n : Nat} (hrefused : s.pwrRefusal r = some n) :
    s.pwrTake = s.pwrClear.pwrRefuse r n := by
  simp [State.pwrTake, hpending, hother, hrun, hrefused]

theorem pwrTake_parks (hother : r ≠ s.pwr.state) (hrun : r ≠ .run) (hfree : s.pwrRefusal r = none) :
    s.pwrTake = State.pwrGo { s.pwrPark with pwr := { s.pwr with going := true } } := by
  simp [State.pwrTake, hpending, hother, hrun, hfree]

theorem pwrGo_quiet (hgoing : s.pwr.going = true) (hfree : s.pwrRefusal r = none)
    (hquiet : ∀ p ∈ s.physIn, (s.quay p).quietPorts = true) : s.pwrGo = s.pwrClear.setPwr r := by
  have hall : s.physIn.all (fun p => (s.quay p).quietPorts) = true := List.all_eq_true.mpr hquiet
  simp [State.pwrGo, hpending, hgoing, hfree, hall]

end

/-- A request not yet taken is taken in Hold at once, and else at a scan tide. -/
theorem pwrStep_takes {s : State} (hgoing : s.pwr.going = false) (hdue : s.pwr.state = .hold ∨ .scan ∈ s.man.due) :
    s.pwrStep = s.pwrTake := by
  have htakes : (s.pwr.state == .hold || s.man.due.contains .scan) = true := by simpa using hdue
  rw [State.pwrStep, hgoing, if_neg Bool.false_ne_true, if_pos htakes]

/-- Settles O31: the three requests are writes of H_PWR_CTL, and PWR_STATE takes the one that waits or enters the one taken. -/
theorem powerRuns : Obligations.PowerRuns := by
  intro s acc r hp hpriv
  refine ⟨fun hhold => ?requests, fun hpending hgoing hother hdue => ?taken, fun hpending hgoing hfree hquiet => ?entered⟩
  case requests =>
    have hwrite (x : Nat) : s.regWrite 0x4C acc x = s.pwrWrite 0x4C acc x :=
      regWrite_harbour (off := 0x4C) hpriv hhold (by decide) (by decide) x
    have hreq (r : PwrSt) := congrArg State.regOk (pwrReq_keyed hhold r)
    exact ⟨command_gives hp ((hwrite _).trans (hreq .run)), command_gives hp ((hwrite _).trans (hreq .idle)),
      command_gives hp ((hwrite _).trans (hreq .hold))⟩
  case taken =>
    have htakes := pwrStep_takes hgoing hdue
    exact ⟨fun hrun => command_gives hp (htakes.trans (pwrTake_run hpending hother hrun)),
      fun hrun n hrefused => command_gives hp (htakes.trans (pwrTake_refused hpending hother hrun hrefused)),
      fun hrun hfree => command_gives hp (htakes.trans (pwrTake_parks hpending hother hrun hfree))⟩
  case entered =>
    have hgo : s.pwrStep = s.pwrGo := if_pos hgoing
    exact command_gives hp (hgo.trans (pwrGo_quiet hpending hgoing hfree hquiet))

/-! ## Warm restart and charter rewrite (R397, R430) -/

section
variable {s : State} (hmaint : s.maint = true) (hrun : s.pwr.state = .run) (off : Nat) (acc : Acc)
include hmaint hrun

theorem warmWrite_keyed (hjob : s.job.phase = .none) (hbusy : s.crwBusy = false) (hmaster : (s.quay 0).inService = true) {x : Nat}
    (hkey : fld x 31 16 = 0x5741) (hreq : bitOf x 0 = true) :
    s.warmWrite off acc x = State.regOk { s with boot := { s.boot with warmReq := true } } := by
  simp [State.warmWrite, hmaint, hrun, hkey, hreq, hjob, hbusy, hmaster]

section
variable {x : Nat} (hkey : fld x 31 16 = 0x4352)
include hkey

theorem crwWrite_go (hgo : bitOf x 0 = true) (habort : bitOf x 1 = false) (hbusy : s.crwBusy = false) :
    s.crwWrite off acc x = s.crwStart.regOk := by
  simp [State.crwWrite, hmaint, hrun, hkey, hgo, habort, hbusy]

theorem crwWrite_abort (hgo : bitOf x 0 = false) (habort : bitOf x 1 = true) (hbusy : s.crwBusy = true) :
    s.crwWrite off acc x = State.regOk { s with crw := { s.crw with stop := 8 } } := by
  simp [State.crwWrite, State.crwAbort, hmaint, hrun, hkey, hgo, habort, hbusy]

end

end

/-- Settles O32: each command is its keyed write of H_WARM or H_CRW_CTL. -/
theorem maintenanceRuns : Obligations.MaintenanceRuns := by
  intro s acc hp hpriv hmaint hrun
  have hhold : s.pwr.state ≠ .hold := by rw [hrun]; decide
  have hwarm (x : Nat) : s.regWrite 0x44 acc x = s.warmWrite 0x44 acc x :=
    regWrite_harbour (off := 0x44) hpriv hhold (by decide) (by decide) x
  have hcrw (x : Nat) : s.regWrite 0x98 acc x = s.crwWrite 0x98 acc x :=
    regWrite_harbour (off := 0x98) hpriv hhold (by decide) (by decide) x
  refine ⟨fun hjob hbusy hmaster => ?warm, fun hbusy => ?go, fun hbusy => ?abort⟩
  case warm => exact command_gives hp ((hwarm _).trans (warmWrite_keyed hmaint hrun _ _ hjob hbusy hmaster (by decide) (by decide)))
  case go => exact command_gives hp ((hcrw _).trans (crwWrite_go hmaint hrun _ _ (by decide) (by decide) (by decide) hbusy))
  case abort => exact command_gives hp ((hcrw _).trans (crwWrite_abort hmaint hrun _ _ (by decide) (by decide) (by decide) hbusy))

end Sys2Proof.Proofs
end

section
/-! O37, O38, O39, O40 and O41: the register port. What an access gives is said once per way it ends: refused for its master, answered in place
of a block in Hold, answered where no register stands, or taken by its block's rule. -/

namespace Sys2Proof.Proofs

open Sys2Proof Sys2Proof.Machine Sys2Proof.Laws

/-! ## Reads that set no work going -/

/-- No word of a quay block is H_BATCH_OPEN. -/
theorem readWorks_quay {addr p off : Nat} (hblk : regBlk addr = .quay p off) : readWorks addr = false := by
  rw [readWorks, beq_eq_false_iff_ne]
  intro hbatch
  have hblock : fld addr 22 18 = 0 := by
    simp only [fld, Nat.shiftRight_eq_div_pow]
    omega
  simp only [regBlk, hblock, beq_self_eq_true, if_true] at hblk
  split at hblk <;> cases hblk

/-- H_BATCH_OPEN is a register. -/
theorem ne_batchOpen_of_not_hReg {off : Nat} (h : hReg off = false) : off ≠ 0x80 := by
  rintro rfl
  exact absurd h (by decide)

/-! ## An offset without a register (R469) -/

/-- An address whose block answers, at an offset where no register stands. -/
def NoRegister (s : State) (addr p off : Nat) : Prop :=
  (regBlk addr = .harbour off ∧ hReg off = false) ∨
    (regBlk addr = .quay p off ∧ qReg off = false ∧ s.fitted p = true ∧ (s.quay p).failed = false)

section
variable {s : State} {addr p off : Nat} (hhold : s.pwr.state ≠ .hold) (hno : NoRegister s addr p off) (acc : Acc)
include hno

theorem readWorks_noRegister : readWorks addr = false := by
  rcases hno with ⟨hblk, hreg⟩ | ⟨hblk, -⟩
  · exact readWorks_harbour hblk (ne_batchOpen_of_not_hReg hreg)
  · exact readWorks_quay hblk

include hhold

theorem regRead_noRegister : s.regRead addr acc = s.regAnswer 0 0 := by
  rcases hno with ⟨hblk, hreg⟩ | ⟨hblk, hreg, hfit, hfailed⟩
  · simp [State.regRead, hblk, hhold, hreg]
  · simp [State.regRead, hblk, hhold, hreg, hfit, hfailed]

theorem regWrite_noRegister (x : Nat) : s.regWrite addr acc x = s.regOk := by
  rcases hno with ⟨hblk, hreg⟩ | ⟨hblk, hreg, hfit, hfailed⟩
  · simp [State.regWrite, hblk, hhold, hreg]
  · simp [State.regWrite, hblk, hhold, hreg, hfit, hfailed]

end

/-- Settles O37: both reads and the write answer OK there, and no more follows at a harbour at rest. -/
theorem noRegisterThere : Obligations.NoRegisterThere := by
  intro s addr p off acc w hp hhold hno
  obtain ⟨hread, hclear⟩ := exec_registerReads hp (readWorks_noRegister hno) (regRead_noRegister hhold hno acc)
  have hwrite : exec (.registerWrite addr acc w) s = .next (s.after State.regOk) :=
    command_gives hp (regWrite_noRegister hhold hno acc _)
  exact ⟨hread, hclear, hwrite, fun hrest => hwrite.trans (congrArg Host.Outcome.next (after_rest (k := State.regOk) hrest))⟩

/-! ## Unprivileged writes (R471) -/

section
variable {s : State} {acc : Acc} (hpriv : acc.priv = false) (hhold : s.pwr.state ≠ .hold) {addr off : Nat} (x : Nat)
include hpriv hhold

theorem regWrite_harbour_refused (hblk : regBlk addr = .harbour off) (hreg : hReg off = true) :
    s.regWrite addr acc x = s.regRefuse s.q0 off acc := by
  simp [State.regWrite, hblk, hhold, hreg, hpriv]

theorem regWrite_quay_refused {p : Nat} (hblk : regBlk addr = .quay p off) (hreg : qReg off = true) (hfit : s.fitted p = true)
    (hfailed : (s.quay p).failed = false) : s.regWrite addr acc x = s.regRefuse p off acc := by
  simp [State.regWrite, hblk, hhold, hreg, hpriv, hfit, hfailed]

end

/-- Settles O38: a write at a register is refused on the quay that serves it before its block's rule is reached. -/
theorem userWritesRefused : Obligations.UserWritesRefused := by
  intro s addr p off acc w hp hhold hpriv
  exact ⟨fun hblk hreg => ⟨command_gives hp (regWrite_harbour_refused hpriv hhold _ hblk hreg), rfl⟩,
    fun hblk hreg hfit hfailed => command_gives hp (regWrite_quay_refused hpriv hhold _ hblk hreg hfit hfailed)⟩

/-! ## Hold (R425, R429) -/

section
variable {s : State} (hhold : s.pwr.state = .hold) {addr off : Nat} (hblk : regBlk addr = .harbour off) (acc : Acc)
include hhold hblk

theorem regRead_hold (hoff : off ∉ holdReads) : s.regRead addr acc = s.regAnswer 1 0 := by
  simp [State.regRead, hblk, hhold, hoff]

theorem regWrite_hold (hoff : off ≠ 0x4C) (x : Nat) : s.regWrite addr acc x = s.regAnswer 1 0 := by
  simp [State.regWrite, hblk, hhold, hoff]

end

/-- Settles O39: the block answers with an error in place of its rule, and takes no count. -/
theorem holdAnswers : Obligations.HoldAnswers := by
  intro s addr off n acc w hp hhold
  exact ⟨fun hblk hoff hbatch => (exec_registerReads hp (readWorks_harbour hblk hbatch) (regRead_hold hhold hblk acc hoff)).1,
    fun hblk hoff => command_gives hp (regWrite_hold hhold hblk acc hoff _), command_gives hp (tideCount_hold hhold n)⟩

/-! ## Configuration writes (R474) -/

theorem regOk_regOut (s : State) : s.regOk.regOut = some { resp := 0, rdata := 0 } := rfl

theorem regOk_hcfg (s : State) : s.regOk.hcfg = s.hcfg := rfl

theorem regOk_quay (s : State) (p : Nat) : s.regOk.quay p = s.quay p := rfl

theorem hReg_of_hConf {off : Nat} (h : hConf off = true) : hReg off = true := by simp [hReg, h]

/-- Tell each quay of a list that a configuration write came while it was enabled. -/
def setIgnored (ps : List Nat) (s : State) : State := foldS ps (fun p s => s.modQuay p (fun q => { q with cfgIgn := true })) s

theorem setIgnored_hcfg (ps : List Nat) (s : State) : (setIgnored ps s).hcfg = s.hcfg :=
  foldS_keeps (P := fun t : State => t.hcfg = s.hcfg) (fun p t h => (modQuay_hcfg t p _).trans h) ps rfl

theorem setIgnored_cfgIgn {ps : List Nat} {p : Nat} (hp : p ∈ ps) (s : State) : ((setIgnored ps s).quay p).cfgIgn = true := by
  have hkeeps (ps : List Nat) {t : State} (ht : (t.quay p).cfgIgn = true) : ((setIgnored ps t).quay p).cfgIgn = true :=
    foldS_keeps (P := fun t : State => (t.quay p).cfgIgn = true) (fun n t ht => by
      by_cases hn : p = n
      · rw [hn, modQuay_self]
      · rwa [modQuay_ne t _ hn]) ps ht
  induction ps generalizing s with
  | nil => cases hp
  | cons n ps ih =>
    rcases List.mem_cons.mp hp with rfl | hp
    · exact hkeeps ps (by rw [modQuay_self])
    · exact ih hp _

theorem evH_hcfg (s : State) (e : Evt) (args : List (Nat × Nat)) : (s.evH e args).hcfg = s.hcfg := by
  obtain ⟨_, _, _, _, _, _, heq⟩ := evOnly_evH s e args
  rw [heq]

theorem evH_cfgIgn (s : State) (e : Evt) (args : List (Nat × Nat)) (p : Nat) : ((s.evH e args).quay p).cfgIgn = (s.quay p).cfgIgn := by
  obtain ⟨_, _, _, _, heq⟩ := evQ_quaysLogged s s.q0 e args p
  rw [State.evH, heq]

section
variable {s : State} (off : Nat) (acc : Acc) (x : Nat)

theorem hConfWrite_refused (h : s.maint = false ∨ (s.boot.phase ≠ 5 ∧ s.boot.phase ≠ 6)) :
    s.hConfWrite off acc x = s.regRefuse s.q0 off acc := by
  have hrefused : (!s.maint || (s.boot.phase != 5 && s.boot.phase != 6)) = true := by
    rcases h with h | ⟨h5, h6⟩
    · simp [h]
    · simp [h5, h6]
  exact if_pos hrefused

section
variable (hmaint : s.maint = true) (hphase : s.boot.phase = 5 ∨ s.boot.phase = 6)
include hmaint hphase

theorem hConfWrite_taken :
    s.hConfWrite off acc x =
      if s.physIn.any (fun p => (s.quay p).enabled) then
        ((setIgnored (s.physIn.filter (fun p => (s.quay p).enabled)) s).evH .configWriteIgnored [(32, off), (8, acc.master)]).regOk
      else if hMask off == 0 then s.regOk else (s.setHw off (x &&& hMask off)).regOk := by
  have htaken : ¬ (!s.maint || (s.boot.phase != 5 && s.boot.phase != 6)) = true := by
    rcases hphase with hphase | hphase <;> simp [hmaint, hphase]
  exact if_neg htaken

theorem hConfWrite_regOut : (s.hConfWrite off acc x).regOut = some { resp := 0, rdata := 0 } := by
  rw [hConfWrite_taken off acc x hmaint hphase]
  split_ifs <;> exact regOk_regOut _

/-- With a quay enabled the word stays, and each enabled quay keeps that it ignored a write. -/
theorem hConfWrite_ignored (hen : ∃ p ∈ s.physIn, (s.quay p).enabled = true) :
    (s.hConfWrite off acc x).hcfg = s.hcfg ∧
      ∀ p ∈ s.physIn, (s.quay p).enabled = true → ((s.hConfWrite off acc x).quay p).cfgIgn = true := by
  rw [hConfWrite_taken off acc x hmaint hphase, if_pos (List.any_eq_true.mpr hen), regOk_hcfg, evH_hcfg, setIgnored_hcfg]
  refine ⟨rfl, fun p hp hpen => ?_⟩
  rw [regOk_quay, evH_cfgIgn, setIgnored_cfgIgn (List.mem_filter.mpr ⟨hp, hpen⟩)]

/-- With no quay enabled the word takes its writable bits (R474). -/
theorem hConfWrite_disabled (hdis : ∀ p ∈ s.physIn, (s.quay p).enabled = false) :
    s.hConfWrite off acc x = if hMask off = 0 then s.regOk else (s.setHw off (x &&& hMask off)).regOk := by
  have hnone : ¬ s.physIn.any (fun p => (s.quay p).enabled) = true := by simpa using hdis
  rw [hConfWrite_taken off acc x hmaint hphase, if_neg hnone]
  simp only [beq_iff_eq]

end

end

theorem setHw_hw_self (s : State) {off v : Nat} (hv : v < 2 ^ 32) : (s.setHw off v).hw off = v := by
  rw [State.hw, State.setHw, Tbl_get_set_self, BitVec.toNat_ofNat, Nat.mod_eq_of_lt hv]

theorem setHw_hw_ne (s : State) {off o : Nat} (ho : o ≠ off) (v : Nat) : (s.setHw off v).hw o = s.hw o := by
  rw [State.hw, State.setHw, Tbl_get_set_ne _ _ _ ho, State.hw]

/-- Settles O40: the checks one after another, each with what the write that ends at it gives. -/
theorem configurationWrites : Obligations.ConfigurationWrites := by
  intro s addr off acc w hhold hpriv hblk hconf
  have hrule : s.regWrite addr acc w.toNat = s.hConfWrite off acc w.toNat :=
    (regWrite_harbour hpriv hhold hblk (hReg_of_hConf hconf) _).trans (if_pos hconf)
  dsimp only
  rw [hrule]
  refine ⟨hConfWrite_refused off acc _, fun hmaint hphase => ⟨hConfWrite_regOut off acc _ hmaint hphase,
    hConfWrite_ignored off acc _ hmaint hphase, fun hdis => ?_⟩⟩
  rw [hConfWrite_disabled off acc _ hmaint hphase hdis]
  have hword : w.toNat &&& hMask off < 2 ^ 32 := Nat.lt_of_le_of_lt Nat.and_le_left w.isLt
  split
  · exact ⟨rfl, fun _ _ => rfl, rfl, rfl, rfl⟩
  · exact ⟨setHw_hw_self s hword, fun o ho => setHw_hw_ne s ho _, rfl, rfl, rfl⟩

/-! ## What a read leaves (R470, R472) -/

/-- `t` is `s` but for the latches of the harbour's pairs, the glitch counts and the answer, the glitch counts only where `off` is theirs. -/
def ReadOfHarbour (s t : State) (off : Nat) : Prop :=
  t = { s with hLatch := t.hLatch, sb := t.sb, regOut := t.regOut } ∧ (off ≠ 0x70 → t.sb = s.sb)

theorem hRead_frame (s : State) {off : Nat} (hoff : off ≠ 0x80) : ReadOfHarbour s (s.hRead off).1 off := by
  unfold State.hRead
  split_ifs with hlo hhi hbatch hglitch
  · exact ⟨rfl, fun _ => rfl⟩
  · exact ⟨rfl, fun _ => rfl⟩
  · exact absurd (beq_iff_eq.mp hbatch) hoff
  · exact ⟨rfl, fun h => absurd (beq_iff_eq.mp hglitch) h⟩
  · exact ⟨rfl, fun _ => rfl⟩

/-- `t` is `s` but for the latch of quay `p` and the answer. -/
def ReadOfQuay (s t : State) (p : Nat) : Prop :=
  t = { s with quays := t.quays, regOut := t.regOut } ∧
    ∀ n, t.quay n = { s.quay n with latch := (t.quay n).latch } ∧ (n ≠ p → t.quay n = s.quay n)

theorem readOfQuay_same (s : State) (p : Nat) : ReadOfQuay s s p := ⟨rfl, fun _ => ⟨rfl, fun _ => rfl⟩⟩

theorem readOfQuay_latch (s : State) (p : Nat) (l : Tbl Nat Word) : ReadOfQuay s (s.modQuay p (fun q => { q with latch := l })) p := by
  refine ⟨rfl, fun n => ?_⟩
  by_cases hn : n = p
  · subst hn
    exact ⟨by rw [modQuay_self], fun h => absurd rfl h⟩
  · rw [modQuay_ne s _ hn]
    exact ⟨rfl, fun _ => rfl⟩

theorem qRead_frame (s : State) (p off : Nat) : ReadOfQuay s (s.qRead p off).1 p := by
  unfold State.qRead
  split
  · exact readOfQuay_same s p
  · dsimp only
    split
    · exact readOfQuay_latch s p _
    · split
      · exact readOfQuay_latch s p _
      · exact readOfQuay_same s p

section
variable {s t : State}

/-- The answer counts for nothing in either frame. -/
theorem ReadOfHarbour.answer {off : Nat} (h : ReadOfHarbour s t off) (resp rdata : Nat) : ReadOfHarbour s (t.regAnswer resp rdata) off := by
  obtain ⟨heq, hsb⟩ := h
  exact ⟨congrArg (fun u => u.regAnswer resp rdata) heq, hsb⟩

theorem ReadOfQuay.answer {p : Nat} (h : ReadOfQuay s t p) (resp rdata : Nat) : ReadOfQuay s (t.regAnswer resp rdata) p := by
  obtain ⟨heq, hquays⟩ := h
  exact ⟨congrArg (fun u => u.regAnswer resp rdata) heq, hquays⟩

end

theorem readOfHarbour_same (s : State) (off : Nat) : ReadOfHarbour s s off := ⟨rfl, fun _ => rfl⟩

section
variable {s : State} {addr off : Nat} {acc : Acc} (hpriv : acc.priv = true)
include hpriv

theorem regRead_harbour_frame (hblk : regBlk addr = .harbour off) (hoff : off ≠ 0x80) : ReadOfHarbour s (s.regRead addr acc) off := by
  unfold State.regRead
  simp only [hblk]
  split_ifs with hhold hreg huser
  · exact (readOfHarbour_same s off).answer _ _
  · exact (readOfHarbour_same s off).answer _ _
  · simp [hpriv] at huser
  · exact (hRead_frame s hoff).answer _ _

theorem regRead_quay_frame {p : Nat} (hblk : regBlk addr = .quay p off) (hfit : s.fitted p = true) (hfailed : (s.quay p).failed = false) :
    ReadOfQuay s (s.regRead addr acc) p := by
  unfold State.regRead
  simp only [hblk]
  split_ifs with hforeign hhold hreg huser
  · simp [hfit, hfailed] at hforeign
  · exact (readOfQuay_same s p).answer _ _
  · exact (readOfQuay_same s p).answer _ _
  · simp [hpriv] at huser
  · exact (qRead_frame s p off).answer _ _

end

/-- Settles O41: a read of either block is its block's read and an answer. -/
theorem registerReadFrame : Obligations.RegisterReadFrame := by
  rintro s _ addr p off acc hpriv rfl
  exact ⟨regRead_harbour_frame hpriv, regRead_quay_frame hpriv⟩

end Sys2Proof.Proofs
end

section
/-! O35: the test access ports (R427, R428). An instruction permitted in the state is selected at its port, and its own work comes after. -/

namespace Sys2Proof.Proofs

open Sys2Proof Sys2Proof.Machine Sys2Proof.Laws

/-- The port with an instruction selected (R427). -/
def tapSelect (t : Tap) (i : TapIr) : Tap :=
  { t with ir := i.code, dr := 0, drive := i == .extest || i == .clamp, hiz := i == .highz }

/-- What DBG_MEM_DATA shows of the last line read (R428). -/
def tapResult (t : Tap) : Nat :=
  pack [(1024, t.memLine.toNat), (32, t.memCrc), (1, b2n t.memPoison), (1, b2n t.memValid), (2, t.memStatus)]

@[simp] theorem tap_setTap_self (s : State) (p : Nat) (t : Tap) : (s.setTap p t).tap p = t := by
  simp [State.tap, State.setTap]

/-- The instructions that take over the pins are permitted together (R427). -/
theorem tapMay_pins (s : State) : s.tapMay .clamp = s.tapMay .extest ∧ s.tapMay .highz = s.tapMay .extest := by
  unfold State.tapMay
  exact ⟨rfl, rfl⟩

/-- With power, a command that selects an instruction changes its port only. -/
theorem aside_selects {s : State} {p : Nat} {t : Tap} {k : State → State} (hp : s.Powered) (hk : k s = s.setTap p t) :
    s.aside k = .next (s.setTap p t) := aside_gives hp hk

/-- One that then puts something into the data register of its port does no more either. -/
theorem aside_captures {s : State} {p : Nat} {t u : Tap} {k : State → State} (hp : s.Powered)
    (hk : k s = (s.setTap p t).setTap p u) : s.aside k = .next ((s.setTap p t).setTap p u) := aside_gives hp hk

theorem idcodeWord_setTap (s : State) (p : Nat) (t : Tap) : (s.setTap p t).idcodeWord = s.idcodeWord := rfl

section
variable {s : State} {p : Nat} (hfit : s.fitted p = true)
include hfit

/-- An instruction permitted in the state is selected before its work. -/
theorem tapDo_permitted {i : TapIr} (hmay : s.tapMay i = true) (k : State → State) :
    s.tapDo p i k = k (s.setTap p (tapSelect (s.tap p) i)) := by
  simp [State.tapDo, hfit, hmay, tapSelect]

/-- IDCODE is permitted in every state, and puts the identity word into the data register (R427, R428). -/
theorem tapIdcode_permitted :
    s.tapDo p .idcode (fun s => s.setTap p { s.tap p with dr := s.idcodeWord }) =
      (s.setTap p (tapSelect (s.tap p) .idcode)).setTap p { tapSelect (s.tap p) .idcode with dr := s.idcodeWord } := by
  rw [tapDo_permitted hfit rfl, tap_setTap_self, idcodeWord_setTap]

theorem tapReset_fitted : s.tapReset p = s.setTap p { s.tap p with ir := 0x01, drive := false, hiz := false, dr := 0 } := by
  simp [State.tapReset, hfit]

theorem tapSample_permitted (hmay : s.tapMay .sample = true) (pins x : BitVec 32) :
    s.tapSample p pins x = (s.setTap p (tapSelect (s.tap p) .sample)).setTap p
      { tapSelect (s.tap p) .sample with bsr := s.capture p pins, latch := x } := by
  rw [State.tapSample, tapDo_permitted hfit hmay, tap_setTap_self]
  rfl

theorem tapExtest_permitted (hmay : s.tapMay .extest = true) (pins x : BitVec 32) :
    s.tapExtest p pins x = (s.setTap p (tapSelect (s.tap p) .extest)).setTap p
      { tapSelect (s.tap p) .extest with bsr := pins, latch := x } := by
  rw [State.tapExtest, tapDo_permitted hfit hmay, tap_setTap_self]

/-- A debug access gives its answer to the port and not to the register port (R428). -/
theorem tapReg_regOut (hmay : s.tapMay .dbgReg = true) (dr : BitVec 64) : (s.tapReg p dr).regOut = s.regOut := by
  rw [State.tapReg, tapDo_permitted hfit hmay]
  rfl

theorem tapData_permitted (hmay : s.tapMay .dbgData = true) :
    s.tapData p = (s.setTap p (tapSelect (s.tap p) .dbgData)).setTap p { tapSelect (s.tap p) .dbgData with dr := tapResult (s.tap p) } := by
  rw [State.tapData, tapDo_permitted hfit hmay, tap_setTap_self]
  rfl

end

/-- Settles O35: each instruction is selected where it is permitted, and does its own work at its port. -/
theorem testAccessRuns : Obligations.TestAccessRuns := by
  intro s p pins x dr da hp hfit
  obtain ⟨hclamp, hhighz⟩ := tapMay_pins s
  refine ⟨?bypass, ?idcode, ?reset, fun hmay => ?sample, fun hmay => ⟨?extest, ?clamp, ?highz⟩, fun hmay => ⟨_, ?reg, rfl, ?regOut⟩,
    fun hmay => ⟨?memAddr, ?memData⟩⟩
  case bypass => exact aside_selects hp (k := fun s => s.tapDo p .bypass id) (tapDo_permitted hfit rfl id)
  case idcode =>
    exact aside_captures hp (k := fun s => s.tapDo p .idcode (fun s => s.setTap p { s.tap p with dr := s.idcodeWord }))
      (tapIdcode_permitted hfit)
  case reset => exact aside_selects hp (k := fun s => s.tapReset p) (tapReset_fitted hfit)
  case sample => exact aside_captures hp (k := fun s => s.tapSample p pins x) (tapSample_permitted hfit hmay pins x)
  case extest => exact aside_captures hp (k := fun s => s.tapExtest p pins x) (tapExtest_permitted hfit hmay pins x)
  case clamp => exact aside_selects hp (k := fun s => s.tapDo p .clamp id) (tapDo_permitted hfit (hclamp.trans hmay) id)
  case highz => exact aside_selects hp (k := fun s => s.tapDo p .highz id) (tapDo_permitted hfit (hhighz.trans hmay) id)
  case reg => exact command_powered hp _
  case regOut => exact tapReg_regOut hfit hmay dr
  case memAddr => exact command_powered hp _
  case memData => exact aside_captures hp (k := fun s => s.tapData p) (tapData_permitted hfit hmay)

end Sys2Proof.Proofs
end

section
/-! O52: what a channel write leaves in memory (R443). In canonical form a byte of a span that has been read is the byte read by itself, so the
line read before the write and the line written are known byte by byte. -/

namespace Sys2Proof.Proofs

open Sys2Proof Sys2Proof.Machine Sys2Proof.Laws

/-! ## Reading a span byte by byte -/

theorem read_cons (c : Host.Cell) (m : List Host.Cell) (k n : Nat) :
    Memory.read (c :: m) k n = (if k ≤ c.1 ∧ c.1 < k + n then byteAtPlace k c else 0) + Memory.read m k n := by
  rw [read_eq_sum, read_eq_sum, List.filter_cons]
  by_cases h : k ≤ c.1 ∧ c.1 < k + n <;> simp [h]

/-- A byte in the upper part of a span counts from the start of that part. -/
theorem byteAtPlace_above {c : Host.Cell} {k a : Nat} (h : k + a ≤ c.1) : byteAtPlace k c = 2 ^ (8 * a) * byteAtPlace (k + a) c := by
  have hplace : 8 * (c.1 - k) = 8 * a + 8 * (c.1 - (k + a)) := by omega
  rw [byteAtPlace, byteAtPlace, Nat.shiftLeft_eq, Nat.shiftLeft_eq, hplace, Nat.pow_add, Nat.mul_left_comm]

/-- A read is the read of the lower part of its span and, above it, that of the upper part. -/
theorem read_split (m : List Host.Cell) (k a b : Nat) :
    Memory.read m k (a + b) = Memory.read m k a + 2 ^ (8 * a) * Memory.read m (k + a) b := by
  induction m with
  | nil => rfl
  | cons c m ih =>
    rw [read_cons, read_cons, read_cons, ih, Nat.mul_add]
    have hcell : (if k ≤ c.1 ∧ c.1 < k + (a + b) then byteAtPlace k c else 0) =
        (if k ≤ c.1 ∧ c.1 < k + a then byteAtPlace k c else 0) +
          2 ^ (8 * a) * (if k + a ≤ c.1 ∧ c.1 < k + a + b then byteAtPlace (k + a) c else 0) := by
      rcases Nat.lt_or_ge c.1 (k + a) with hlow | hhigh
      · have hupper : ¬ (k + a ≤ c.1 ∧ c.1 < k + a + b) := fun h => absurd h.1 (Nat.not_le.mpr hlow)
        have hwhole : (k ≤ c.1 ∧ c.1 < k + (a + b)) ↔ (k ≤ c.1 ∧ c.1 < k + a) := by omega
        rw [if_neg hupper, Nat.mul_zero, Nat.add_zero]
        exact if_congr hwhole rfl rfl
      · have hlower : ¬ (k ≤ c.1 ∧ c.1 < k + a) := fun h => absurd h.2 (Nat.not_lt.mpr hhigh)
        have hwhole : (k ≤ c.1 ∧ c.1 < k + (a + b)) ↔ (k + a ≤ c.1 ∧ c.1 < k + a + b) := by omega
        rw [if_neg hlower, Nat.zero_add, byteAtPlace_above hhigh, mul_ite, Nat.mul_zero]
        exact if_congr hwhole rfl rfl
    rw [hcell]
    omega

/-- In canonical form no two cells lie at one address, so a byte reads as a byte. -/
theorem read_one_lt {m : List Host.Cell} (h : Memory.wf m) (k : Nat) : Memory.read m k 1 < 2 ^ 8 := by
  obtain ⟨hsorted, -⟩ := h
  induction m with
  | nil => exact Nat.two_pow_pos 8
  | cons c m ih =>
    obtain ⟨hfirst, hsorted⟩ := List.pairwise_cons.mp hsorted
    rw [read_cons]
    split
    case isTrue hc =>
      have hrest : Memory.read m k 1 = 0 := read_eq_zero fun b hb hspan => by
        have hlt : c.1 < b.1 := hfirst b hb
        obtain ⟨-, hhi⟩ := hspan
        omega
      have hplace : c.1 - k = 0 := by omega
      rw [hrest, Nat.add_zero, byteAtPlace, hplace]
      exact c.2.isLt
    case isFalse =>
      rw [Nat.zero_add]
      exact ih hsorted

theorem read_lt {m : List Host.Cell} (h : Memory.wf m) (k n : Nat) : Memory.read m k n < 2 ^ (8 * n) := by
  induction n with
  | zero => simp [read_eq_zero (m := m) (k := k) (n := 0) fun c _ hspan => by obtain ⟨hlo, hhi⟩ := hspan; omega]
  | succ n ih =>
    have hbyte := read_one_lt h (k + n)
    rw [read_split, Nat.mul_succ, Nat.pow_add]
    calc Memory.read m k n + 2 ^ (8 * n) * Memory.read m (k + n) 1
        < 2 ^ (8 * n) + 2 ^ (8 * n) * Memory.read m (k + n) 1 := Nat.add_lt_add_right ih _
      _ = 2 ^ (8 * n) * (Memory.read m (k + n) 1 + 1) := by rw [Nat.mul_succ, Nat.add_comm]
      _ ≤ 2 ^ (8 * n) * 2 ^ 8 := Nat.mul_le_mul_left _ hbyte

/-- A byte of a span that has been read is the byte at its address. -/
theorem byt_read {m : List Host.Cell} (h : Memory.wf m) (k : Nat) {i n : Nat} (hi : i < n) :
    byt (Memory.read m k n) i i = Memory.read m (k + i) 1 := by
  obtain ⟨r, rfl⟩ : ∃ r, n = i + (1 + r) := ⟨n - i - 1, by omega⟩
  rw [byt_self, read_split, read_split, Nat.shiftRight_eq_div_pow, Nat.add_mul_div_left _ _ (Nat.two_pow_pos _),
    Nat.div_eq_of_lt (read_lt h k i), Nat.zero_add, Nat.mul_one, show 256 = 2 ^ 8 from rfl,
    Nat.add_mul_mod_self_left, Nat.mod_eq_of_lt (read_one_lt h (k + i))]

/-- Bits that fill a span read back as they were written. -/
theorem read_write_bits {w n : Nat} (hw : w = 8 * n) (m : List Host.Cell) (k : Nat) (v : BitVec w) :
    Memory.read (Memory.write m k n v.toNat) k n = v.toNat := by
  subst hw
  rw [read_write_same, Nat.mod_eq_of_lt v.isLt]

/-! ## The enabled bytes of a line (R29) -/

theorem testBit_byt (v i t : Nat) : (byt v i i).testBit t = (decide (t < 8) && v.testBit (8 * i + t)) := by
  rw [byt_self, show 256 = 2 ^ 8 from rfl, Nat.testBit_mod_two_pow, Nat.testBit_shiftRight]

/-- The byte enables as bits, for the first `n` bytes. -/
def maskBits (mask : BitVec 128) (n : Nat) : Nat :=
  (List.range n).foldl (fun a i => if mask.getLsbD i then a + 255 <<< (8 * i) else a) 0

theorem maskBits_succ (mask : BitVec 128) (n : Nat) :
    maskBits mask (n + 1) = maskBits mask n + (if mask.getLsbD n then 255 else 0) <<< (8 * n) := by
  simp only [maskBits, List.range_succ, List.foldl_append, List.foldl_cons, List.foldl_nil]
  split <;> simp

theorem maskBits_lt (mask : BitVec 128) (n : Nat) : maskBits mask n < 2 ^ (8 * n) := by
  induction n with
  | zero => exact Nat.one_pos
  | succ n ih =>
    have hbyte : (if mask.getLsbD n then 255 else 0) < 2 ^ 8 := by split <;> decide
    rw [maskBits_succ]
    exact add_shiftLeft_lt ih hbyte

theorem testBit_maskBits (mask : BitVec 128) (n j : Nat) :
    (maskBits mask n).testBit j = (decide (j < 8 * n) && mask.getLsbD (j / 8)) := by
  induction n with
  | zero => simp [maskBits]
  | succ n ih =>
    have hbyte (t : Nat) : (if mask.getLsbD n then 255 else 0).testBit t = (decide (t < 8) && mask.getLsbD n) := by
      split
      · next hm => rw [hm, show 255 = 2 ^ 8 - 1 from rfl, Nat.testBit_two_pow_sub_one, Bool.and_true]
      · next hm => simp [hm]
    rw [maskBits_succ, Nat.add_comm, Nat.shiftLeft_add_eq_or_of_lt (maskBits_lt mask n), Nat.testBit_or, Nat.testBit_shiftLeft, ih, hbyte]
    rcases Nat.lt_or_ge j (8 * n) with hlow | hhigh
    · have hnext : j < 8 * (n + 1) := by omega
      simp [hlow, hnext, Nat.not_le.mpr hlow]
    · have hsame : j - 8 * n < 8 ↔ j < 8 * (n + 1) := by omega
      by_cases hj : j < 8 * (n + 1)
      · have hn : j / 8 = n := by omega
        simp [hhigh, hsame, hj, hn]
      · simp [hsame, hj, Nat.not_lt.mpr hhigh]

theorem getLsbD_expandMask (mask : BitVec 128) {j : Nat} (hj : j < 1024) : (expandMask mask).getLsbD j = mask.getLsbD (j / 8) := by
  have hdef : expandMask mask = BitVec.ofNat 1024 (maskBits mask 128) := rfl
  rw [hdef, BitVec.getLsbD_ofNat, testBit_maskBits, decide_eq_true hj, Bool.true_and, Bool.true_and]

theorem getLsbD_mergeLine (mask : BitVec 128) (d old : Line) {j : Nat} (hj : j < 1024) :
    (mergeLine mask d old).getLsbD j = if mask.getLsbD (j / 8) then d.getLsbD j else old.getLsbD j := by
  unfold mergeLine
  split
  case isTrue hfull =>
    have hbyte : j / 8 < 128 := by omega
    have henabled : mask.getLsbD (j / 8) = true := by rw [hfull, fullMask, BitVec.getLsbD_allOnes, decide_eq_true hbyte]
    rw [if_pos henabled]
  case isFalse =>
    rw [BitVec.getLsbD_or, BitVec.getLsbD_and, BitVec.getLsbD_and, BitVec.getLsbD_not, getLsbD_expandMask mask hj, decide_eq_true hj]
    cases mask.getLsbD (j / 8) <;> simp

/-- A line written has the enabled bytes of the data and the others as they were (R29). -/
theorem byt_mergeLine (mask : BitVec 128) (d old : Line) {i : Nat} (hi : i < 128) :
    byt (mergeLine mask d old).toNat i i = if mask.getLsbD i then byt d.toNat i i else byt old.toNat i i := by
  have hbit (t : Nat) : (byt (mergeLine mask d old).toNat i i).testBit t =
      if mask.getLsbD i then (byt d.toNat i i).testBit t else (byt old.toNat i i).testBit t := by
    rw [testBit_byt, testBit_byt, testBit_byt, BitVec.testBit_toNat, BitVec.testBit_toNat, BitVec.testBit_toNat]
    by_cases ht : t < 8
    · have hj : 8 * i + t < 1024 := by omega
      have hbyte : (8 * i + t) / 8 = i := by omega
      rw [getLsbD_mergeLine mask d old hj, hbyte]
      split <;> rfl
    · simp [ht]
  refine Nat.eq_of_testBit_eq fun t => (hbit t).trans ?_
  split <;> rfl

/-! ## Memory after a write (R443) -/

theorem lineOf_of_aligned {a : Nat} (h : a % 128 = 0) : lineOf a = a := by
  rw [lineOf, h, Nat.sub_zero]

theorem memKey_of_lt {a : Nat} (l : Nat) (h : a < 2 ^ 40) : memKey l a = l * 2 ^ 40 + a := by
  rw [memKey, Nat.mod_eq_of_lt h]

/-- Addresses of port positions have keys of their own. -/
theorem memKey_inj {l l' a x : Nat} (ha : a < 2 ^ 40) (hx : x < 2 ^ 40) : memKey l' x = memKey l a ↔ l' = l ∧ x = a := by
  rw [memKey_of_lt l ha, memKey_of_lt l' hx]
  omega

theorem applyWrite_mem (s : State) (l a : Nat) (d : McData) :
    (s.applyWrite l a d).mem = Memory.write s.mem (memKey l a) 128 (mergeLine d.mask d.data (s.readLine l a)).toNat := by
  unfold State.applyWrite
  dsimp only
  split_ifs <;> rfl

theorem applyWrite_poisoned (s : State) (l a : Nat) (d : McData) :
    (s.applyWrite l a d).poisoned =
      if d.poison then setMark true (memKey l a) s.poisoned
      else if d.mask = fullMask then setMark false (memKey l a) s.poisoned else s.poisoned := by
  unfold State.applyWrite
  dsimp only
  split_ifs <;> rfl

theorem contains_setMark (b : Bool) (k x : Nat) (marks : List Nat) :
    (setMark b k marks).contains x = if x = k then b else marks.contains x := by
  unfold setMark
  rcases b with _ | _
  · by_cases hx : x = k <;> simp [hx]
  · by_cases hk : k ∈ marks
    · by_cases hx : x = k <;> simp [hk, hx]
    · by_cases hx : x = k <;> simp [hk, hx]

section
variable {s : State} {l a x : Nat} (d : McData) (hline : a % 128 = 0) (ha : a < 2 ^ 40) (hx : x < 2 ^ 40)
include hline ha hx

/-- What lies outside the line reads as before. -/
theorem readB_applyWrite_outside {l' : Nat} (hout : l' ≠ l ∨ ¬ (a ≤ x ∧ x < a + 128)) :
    (s.applyWrite l a d).readB l' x 1 = s.readB l' x 1 := by
  rw [State.readB, State.readB, applyWrite_mem, memKey_of_lt l ha, memKey_of_lt l' hx]
  exact read_write_of_disjoint _ _ (by omega)

/-- A byte of the line is the one written where it is enabled. -/
theorem readB_applyWrite_inside (hwf : Memory.wf s.mem) (hlo : a ≤ x) (hhi : x < a + 128) :
    (s.applyWrite l a d).readB l x 1 = if d.mask.getLsbD (x - a) then byt d.data.toNat (x - a) (x - a) else s.readB l x 1 := by
  have hi : x - a < 128 := by omega
  have hkey : memKey l x = memKey l a + (x - a) := by
    rw [memKey_of_lt l ha, memKey_of_lt l hx]
    omega
  have hfits : Memory.read s.mem (memKey l a) 128 < 2 ^ 1024 := by
    have hlt := read_lt hwf (memKey l a) 128
    rwa [show 8 * 128 = 1024 from rfl] at hlt
  have hold : byt (s.readLine l a).toNat (x - a) (x - a) = s.readB l x 1 := by
    rw [State.readLine, State.readB, lineOf_of_aligned hline, State.readB, toNat_ofNat_of_lt hfits, byt_read hwf _ hi, ← hkey]
  have hnew : (s.applyWrite l a d).readB l x 1 = byt (mergeLine d.mask d.data (s.readLine l a)).toNat (x - a) (x - a) := by
    rw [State.readB, applyWrite_mem, hkey, ← byt_read (write_wf hwf _ _ _) _ hi, read_write_bits rfl]
  rw [hnew, byt_mergeLine _ _ _ hi, hold]

end

/-- Settles O52: the bytes by whether they lie in the line, the marks by whether they are the line's. -/
theorem channelWriteBytes : Obligations.ChannelWriteBytes := by
  intro s l l' a x d hwf hline ha hx
  have hxline : lineOf x < 2 ^ 40 := Nat.lt_of_le_of_lt (Nat.sub_le _ _) hx
  refine ⟨?bytes, fun hl => readB_applyWrite_outside d hline ha hx (.inl hl), ?mark, fun hne => ?marks⟩
  case bytes =>
    by_cases hin : a ≤ x ∧ x < a + 128
    · rw [readB_applyWrite_inside d hline ha hx hwf hin.1 hin.2]
      simp only [hin, true_and]
    · rw [readB_applyWrite_outside d hline ha hx (.inr hin), if_neg fun h => hin ⟨h.1, h.2.1⟩]
  case mark =>
    rw [State.isPoisoned, State.isPoisoned, lineOf_of_aligned hline, applyWrite_poisoned]
    split_ifs with hpoison hfull
    · rw [contains_setMark, if_pos rfl, hpoison, Bool.true_or]
    · rw [contains_setMark, if_pos rfl, hfull]
      simp [hpoison]
    · simp [hpoison, hfull]
  case marks =>
    have hkey : memKey l' (lineOf x) ≠ memKey l a := fun h => by
      obtain ⟨hl, hxa⟩ := (memKey_inj ha hxline).mp h
      exact hne.elim (fun h => h hl) (fun h => h hxa)
    rw [State.isPoisoned, State.isPoisoned, applyWrite_poisoned]
    split_ifs <;> simp only [contains_setMark, if_neg hkey]

end Sys2Proof.Proofs
end
